-- ==== Sys2Proof/Word.lean ====
section
/-! DEFINITION. The word types of the register-bus block: the byte of a slot or of memory, the 16-bit
pointer and measurement, the 32-bit clock field (spec 00_scope.md R8). -/

namespace Sys2Proof

/-- An 8-bit value: a slot, a byte of the persistent region, a byte on the wire (20_memory.md R66). -/
abbrev Byte := BitVec 8

/-- A 16-bit value: the register pointer (10_state.md R30), a measurement (R49). -/
abbrev Half := BitVec 16

/-- A 32-bit value: a clock field (10_state.md R40), a filter accumulator (R49). -/
abbrev Word := BitVec 32

end Sys2Proof
end

