-- ==== Sys2Proof/Config.lean ====
section
/-! DEFINITION. The parameters of the block (spec 00_scope.md R7) as one record of plain data, the test
configuration CFG0, and the free values: opaque constants that stand for what the spec calls unspecified. -/

namespace Sys2Proof

/-- The charge state {off, charging, complete, fault} (10_state.md R39). -/
inductive ChgState where
  | off | charging | complete | fault
deriving DecidableEq, Repr

/-- `CHG_MAP` (00_scope.md R7): the charge state for each value of the 2-bit code `{chg1, chg0}`. -/
structure ChgMap where
  code0 : ChgState
  code1 : ChgState
  code2 : ChgState
  code3 : ChgState
deriving DecidableEq, Repr

/-- The charge state that the code `{chg1, chg0}` stands for (42_digital_io.md R210). -/
def ChgMap.get (m : ChgMap) (chg1 chg0 : Bool) : ChgState :=
  match chg1, chg0 with
  | false, false => m.code0
  | false, true  => m.code1
  | true,  false => m.code2
  | true,  true  => m.code3

/-- The consumers of phase flags in the order the super-loop polls them (41_tick_scheduler.md R187). -/
inductive Consumer where
  | ps | rtc | dio | ind | run
deriving DecidableEq, Repr

/-- `(i + 1) mod N_CONSUMERS` with `N_CONSUMERS = 5` (41_tick_scheduler.md R186, R187). -/
def Consumer.next : Consumer → Consumer
  | .ps => .rtc
  | .rtc => .dio
  | .dio => .ind
  | .ind => .run
  | .run => .ps

/-- One value for each consumer: `PHASE[i]`, `PERIOD[i]`, `sched.dec[i]`, `sched.flag[i]`. -/
structure PerConsumer (α : Type) where
  ps  : α
  rtc : α
  dio : α
  ind : α
  run : α
deriving DecidableEq, Repr

namespace PerConsumer

/-- The value of consumer `c`. -/
def get {α : Type} (v : PerConsumer α) : Consumer → α
  | .ps => v.ps
  | .rtc => v.rtc
  | .dio => v.dio
  | .ind => v.ind
  | .run => v.run

/-- `v` with consumer `c`'s value replaced. -/
def set {α : Type} (v : PerConsumer α) (c : Consumer) (x : α) : PerConsumer α :=
  match c with
  | .ps => { v with ps := x }
  | .rtc => { v with rtc := x }
  | .dio => { v with dio := x }
  | .ind => { v with ind := x }
  | .run => { v with run := x }

/-- The same value for every consumer. -/
def all {α : Type} (x : α) : PerConsumer α := ⟨x, x, x, x, x⟩

end PerConsumer

/-- One line of the calibration lookup (46_boundary_modules.md R310): the result for one channel and one filtered
value. -/
structure CalEntry where
  /-- The channel number, 0 to 4. -/
  channel : Fin 5
  /-- The filtered value. -/
  input : Word
  /-- What is published for it. -/
  result : Half
deriving DecidableEq, Repr

/-- Every parameter of 00_scope.md R7 that the source does not fix. It is held in `State.cfg`, which no
step changes, so that a statement over all states is a statement over all configurations
(assumption log 4). -/
structure Config where
  /-- `SLAVE_ADDR`, the 7-bit bus address. -/
  slaveAddr : BitVec 7
  /-- `ID_VALUE`. -/
  idValue : Byte
  /-- `VERSION_MAJOR`. -/
  versionMajor : BitVec 4
  /-- `VERSION_MINOR`. -/
  versionMinor : BitVec 4
  /-- `BL_DEFAULT`. -/
  blDefault : Byte
  /-- `PRESS_DEFAULT`. -/
  pressDefault : Byte
  /-- `SHDN_SENTINEL`. -/
  shdnSentinel : Byte
  /-- `NV_CMD_COMMIT`. -/
  nvCmdCommit : Byte
  /-- `NV_CMD_RELOAD`. -/
  nvCmdReload : Byte
  /-- `NV_BATCH`. -/
  nvBatch : Nat
  /-- `NV_ERASED`. -/
  nvErased : Byte
  /-- `ST_CRIT_BIT`. -/
  stCritBit : Nat
  /-- `ST_SHORT_BIT`. -/
  stShortBit : Nat
  /-- `ST_REASON_LSB`. -/
  stReasonLsb : Nat
  /-- `REASON_BUTTON`. -/
  reasonButton : BitVec 3
  /-- `REASON_ALARM`. -/
  reasonAlarm : BitVec 3
  /-- `REASON_CHARGE`. -/
  reasonCharge : BitVec 3
  /-- `DI_CARD_BIT`. -/
  diCardBit : Nat
  /-- `DI_BTN_BIT`. -/
  diBtnBit : Nat
  /-- `DI_CHG_LSB`. -/
  diChgLsb : Nat
  /-- `WK_ALARM_BIT`. -/
  wkAlarmBit : Nat
  /-- `WK_CHGSTART_BIT`. -/
  wkChgStartBit : Nat
  /-- `WK_CHGDONE_BIT`. -/
  wkChgDoneBit : Nat
  /-- `CHG_MAP`. -/
  chgMap : ChgMap
  /-- `VBAT_CH`. -/
  vbatCh : Fin 4
  /-- `VBAT_ON`. -/
  vbatOn : Half
  /-- `VBAT_CRIT`. -/
  vbatCrit : Half
  /-- `CRIT_TIMEOUT`. -/
  critTimeout : Nat
  /-- `CRIT_GRACE`. -/
  critGrace : Nat
  /-- `TICKS_PER_MS`. -/
  ticksPerMs : Nat
  /-- `PHASE[i]`. -/
  phase : PerConsumer Nat
  /-- `PERIOD[i]`. -/
  period : PerConsumer Nat
  /-- `WDT_TICKS`. -/
  wdtTicks : Nat
  /-- `LONG_PRESS_TICKS`. -/
  longPressTicks : Nat
  /-- `IND_STEP`. -/
  indStep : Nat
  /-- `IND_MIN`. -/
  indMin : Byte
  /-- `IND_MAX`. -/
  indMax : Byte
  /-- `BLINK_HALF`. -/
  blinkHalf : Nat
  /-- `CORR_POS_ADDS`. -/
  corrPosAdds : Bool
  /-- `ADC_BITS`. -/
  adcBits : Nat
  /-- `EMA_K[0..3]`. -/
  emaK : Vector Nat 4
  /-- `TEMP_DEPTH`. -/
  tempDepth : Nat
  /-- `CAL`, a total function from a channel and a filtered value to 16 bits, as the list of its differences from
  the identity truncated to 16 bits; every such function has a list (assumption log 19). -/
  calTable : List CalEntry
deriving DecidableEq, Repr

namespace Config

/-- `PERSIST_SIZE` and `CTRL_BASE` (00_scope.md R7, fixed by the source). -/
def persistSize : Nat := 4096

/-- `NV_MIRROR_SIZE` (00_scope.md R7, fixed by the source). -/
def nvMirrorSize : Nat := 1024

/-- `CTRL_SLOTS` (00_scope.md R7, fixed by the source). -/
def ctrlSlots : Nat := 32

/-- `RO_BOUNDARY`, the first host-writable slot (00_scope.md R7, fixed by the source). -/
def roBoundary : Nat := 14

/-- `NV_IDLE` (00_scope.md R7, the spec's decision D18). -/
def nvIdle : Byte := 0x00#8

/-- `NV_BUSY` (00_scope.md R7, the spec's decision D18). -/
def nvBusy : Byte := 0x01#8

/-- Five numbers no two of which are equal. -/
def distinct5 (v : PerConsumer Nat) : Bool :=
  [v.ps, v.rtc, v.dio, v.ind, v.run].Nodup

/-- The constraints on the trigger bytes and the persistent store (00_scope.md R7). -/
def wfTriggers (c : Config) : Bool :=
  c.shdnSentinel != 0x00#8 && c.nvCmdCommit != nvIdle && c.nvCmdCommit != nvBusy &&
  c.nvCmdCommit != c.nvCmdReload && c.nvCmdReload != nvIdle && c.nvCmdReload != nvBusy &&
  decide (1 ≤ c.nvBatch) && decide (c.nvBatch ≤ nvMirrorSize)

/-- The constraints on the bit positions and the reason codes (00_scope.md R7). -/
def wfLayout (c : Config) : Bool :=
  decide (c.stReasonLsb ≤ 5) && decide (c.stCritBit < 8) && decide (c.stShortBit < 8) &&
  decide [c.stCritBit, c.stShortBit, c.stReasonLsb, c.stReasonLsb + 1, c.stReasonLsb + 2].Nodup &&
  decide [c.reasonButton, c.reasonAlarm, c.reasonCharge].Nodup &&
  decide (c.diCardBit < 8) && decide (c.diBtnBit < 8) && decide (c.diChgLsb ≤ 6) &&
  decide [c.diCardBit, c.diBtnBit, c.diChgLsb, c.diChgLsb + 1].Nodup &&
  decide (c.wkAlarmBit < 8) && decide (c.wkChgStartBit < 8) && decide (c.wkChgDoneBit < 8) &&
  decide [c.wkAlarmBit, c.wkChgStartBit, c.wkChgDoneBit].Nodup

/-- The constraints on the counters, the indicator and the sampler (00_scope.md R7). -/
def wfCounters (c : Config) : Bool :=
  decide (1 ≤ c.critTimeout) && decide (5 ≤ c.ticksPerMs) && distinct5 c.phase &&
  decide (c.phase.ps < c.ticksPerMs) && decide (c.phase.rtc < c.ticksPerMs) &&
  decide (c.phase.dio < c.ticksPerMs) && decide (c.phase.ind < c.ticksPerMs) &&
  decide (c.phase.run < c.ticksPerMs) &&
  decide (1 ≤ c.period.ps) && decide (1 ≤ c.period.rtc) && decide (1 ≤ c.period.dio) &&
  decide (1 ≤ c.period.ind) && decide (1 ≤ c.period.run) &&
  decide (1 ≤ c.wdtTicks) && decide (1 ≤ c.longPressTicks) && decide (1 ≤ c.indStep) &&
  decide (c.indMin < c.indMax) && decide (1 ≤ c.blinkHalf) &&
  decide (1 ≤ c.adcBits) && decide (c.adcBits ≤ 16) && c.emaK.toList.all (fun k => decide (k ≤ 15)) &&
  decide (1 ≤ c.tempDepth)

/-- The configuration meets every constraint of 00_scope.md R7. -/
def wf (c : Config) : Bool := c.wfTriggers && c.wfLayout && c.wfCounters

/-- The test configuration CFG0 (00_scope.md R7, column "vector value"). -/
def cfg0 : Config where
  slaveAddr := 0x12#7
  idValue := 0x01#8
  versionMajor := 1#4
  versionMinor := 0#4
  blDefault := 0x80#8
  pressDefault := 50#8
  shdnSentinel := 0x0F#8
  nvCmdCommit := 0x57#8
  nvCmdReload := 0x52#8
  nvBatch := 4
  nvErased := 0xFF#8
  stCritBit := 7
  stShortBit := 4
  stReasonLsb := 0
  reasonButton := 0b001#3
  reasonAlarm := 0b010#3
  reasonCharge := 0b100#3
  diCardBit := 3
  diBtnBit := 2
  diChgLsb := 0
  wkAlarmBit := 0
  wkChgStartBit := 1
  wkChgDoneBit := 2
  chgMap := ⟨.off, .charging, .complete, .fault⟩
  vbatCh := 2
  vbatOn := 3500#16
  vbatCrit := 3300#16
  critTimeout := 3
  critGrace := 0
  ticksPerMs := 8
  phase := ⟨0, 1, 2, 3, 4⟩
  period := PerConsumer.all 10
  wdtTicks := 8000
  longPressTicks := 300
  indStep := 5
  indMin := 0x00#8
  indMax := 0xFF#8
  blinkHalf := 25
  corrPosAdds := true
  adcBits := 12
  emaK := Vector.replicate 4 4
  tempDepth := 8
  calTable := []

/-- The `n`-th value drawn for the pointer where the spec says `unspecified(16)` (40_register_bus.md R143,
70_reset_and_hazards.md R350): a free value, assumption log 13. -/
opaque freePtr : Nat → Half

/-- The `n`-th value drawn for the seconds counter where the spec says `unspecified(32)`
(70_reset_and_hazards.md R351): a free value, assumption log 14. -/
opaque freeCount : Nat → Word

end Config

end Sys2Proof
end

