-- ==== Sys2Proof/Syntax.lean ====
section
/-! DEFINITION. The operations of the block: one constructor of `Instr` for each row of spec/opcode_table.json,
the wire events they are read from, and the slave's context that picks the row. -/

namespace Sys2Proof

/-- The four input levels at the moment a step samples them (10_state.md R50): free inputs, so they are an
operand of the events that sample them (assumption log 12). -/
structure Pins where
  /-- `pin.btn`, 1 = button pressed. -/
  btn : Bool
  /-- `pin.chg0`. -/
  chg0 : Bool
  /-- `pin.chg1`. -/
  chg1 : Bool
  /-- `pin.card`, 1 = card present. -/
  card : Bool
deriving DecidableEq, Repr

/-- `bus.mode` (10_state.md R34). -/
inductive BusMode where
  | active | suspended | disabled
deriving DecidableEq, Repr

/-- `bus.phase` (10_state.md R29): what the next received byte is. -/
inductive Phase where
  | idle | addrHi | addrLo | data
deriving DecidableEq, Repr

/-- The direction bit of a `START` (30_encoding.md R90): `w` is 0, `r` is 1. -/
inductive Dir where
  | w | r
deriving DecidableEq, Repr

/-- The events of the two-wire link (30_encoding.md R90). -/
inductive WireEvent where
  /-- `START(a, rw)`. -/
  | start (a : BitVec 7) (rw : Dir)
  /-- `WDATA(b)`. -/
  | wdata (b : Byte)
  /-- `RACK`. -/
  | rack
  /-- `RNACK`. -/
  | rnack
  /-- `STOP`. -/
  | stop
  /-- `BUS_ERR`. -/
  | busErr
deriving DecidableEq, Repr

/-- The channel of a conversion result (46_boundary_modules.md R308): one of the four analog channels, or the
temperature sensor (channel 4). -/
inductive Channel where
  | analog (j : Fin 4)
  | temperature
deriving DecidableEq, Repr

/-- What is done at a location of the register space once the pointer word is loaded: nothing, one `RegRead`
or one `RegWrite` (20_memory.md R61, R62; assumption log 7). -/
inductive Access where
  | point
  | read
  | write (b : Byte)
deriving DecidableEq, Repr

/-- What decides which row of the table a wire event is: the parameters, `bus.mode`, `bus.phase` and `bus.dir`
(40_register_bus.md R151). -/
structure Ctx where
  cfg   : Config
  mode  : BusMode
  phase : Phase
  dir   : Dir
deriving DecidableEq, Repr

/-- The rows of spec/opcode_table.json. -/
inductive Instr where
  -- bus events (40_register_bus.md)
  /-- `START_OTHER`, R131: a start for another address. -/
  | startOther (a : BitVec 7) (rw : Dir)
  /-- `START_W`, R132. -/
  | startW
  /-- `START_R`, R133. -/
  | startR
  /-- `ADDR_HI`, R134. -/
  | addrHi (b : Byte)
  /-- `ADDR_LO`, R135. -/
  | addrLo (b : Byte)
  /-- `WR_DATA`, R136. -/
  | wrData (b : Byte)
  /-- `RD_ACK`, R137. -/
  | rdAck
  /-- `RD_NACK`, R138. -/
  | rdNack
  /-- `STOP`, R139. -/
  | stop
  /-- `BUS_ERR`, R140. -/
  | busErr
  /-- `WDATA_IN_READ`, R141. -/
  | wdataInRead (b : Byte)
  /-- `RACK_IN_WRITE`, R141: `RACK` or `RNACK` where a write byte is expected. -/
  | rackInWrite (e : WireEvent)
  /-- `NOT_ADDRESSED`, R142: `WDATA`, `RACK` or `RNACK` in phase Idle. -/
  | notAddressed (e : WireEvent)
  /-- `BUS_INACTIVE`, R150: any bus event while the bus is not Active. -/
  | busInactive (e : WireEvent)
  -- internal events, lifecycle operations, evaluations
  /-- `HANGGUARD`, 40_register_bus.md R144. -/
  | hangguard
  /-- `SUSPEND`, R145. -/
  | suspend
  /-- `RESUME`, R146. -/
  | resume
  /-- `SHUTDOWN`, R147. -/
  | shutdown
  /-- `TICK`, 41_tick_scheduler.md R180. -/
  | tick
  /-- `LOOPSTEP`, R186; the pins are sampled when it runs `EVAL_DIO`. -/
  | loopStep (p : Pins)
  /-- `EVAL_PS`, 46_boundary_modules.md R300. -/
  | evalPs
  /-- `EVAL_RTC`, 43_rtc.md R225. -/
  | evalRtc
  /-- `EVAL_DIO`, 42_digital_io.md R201. -/
  | evalDio (p : Pins)
  /-- `EVAL_IND`, 44_indicator.md R243. -/
  | evalInd
  /-- `EVAL_RUN`, 45_power_sequencer.md R269. -/
  | evalRun
  /-- `WDT_EXPIRE`, 41_tick_scheduler.md R189; the pins are sampled by the Wake entry action. -/
  | wdtExpire (p : Pins)
  /-- `SECOND`, 43_rtc.md R220. -/
  | second
  /-- `SAMPLE(ch, v)`, 46_boundary_modules.md R308. -/
  | sample (ch : Channel) (v : Half)
  /-- `POWER_ON`, 70_reset_and_hazards.md R350; the pins are sampled by the Wake entry action. -/
  | powerOn (p : Pins)
  /-- `WAKEUP`, 45_power_sequencer.md R283; the pins are sampled by the Wake entry action. -/
  | wakeup (p : Pins)
  -- composite operations of the host (30_encoding.md R110)
  /-- `write8(A, v)`. -/
  | write8 (a : Half) (v : Byte)
  /-- `write16(A, v)`. -/
  | write16 (a : Half) (v : Half)
  /-- `write32(A, v)`. -/
  | write32 (a : Half) (v : Word)
  /-- `read8(A)`. -/
  | read8 (a : Half)
  /-- `read16(A)`. -/
  | read16 (a : Half)
  /-- `read32(A)`. -/
  | read32 (a : Half)
  /-- `nvwrite(A, d)`. -/
  | nvwrite (a : Half) (d : List Byte)
  /-- `nvread(A, n)`. -/
  | nvread (a : Half) (n : Nat)
  /-- `setptr(A)`. -/
  | setptr (a : Half)
  -- the pointer word (20_memory.md R60; the slots' own rules stand in 10_state.md)
  /-- `PTR_PERSIST`, pattern `0000pppppppppppp`, R60. -/
  | ptrPersist (p : BitVec 12) (acc : Access)
  /-- `SLOT_ID`, pattern `rrrrxxxxxxx00000`; `x` holds the pointer's bits 15:5. 10_state.md R14. -/
  | slotId (x : BitVec 11) (acc : Access)
  /-- `SLOT_VERSION`, R15. -/
  | slotVersion (x : BitVec 11) (acc : Access)
  /-- `SLOT_STATUS`, R16. -/
  | slotStatus (x : BitVec 11) (acc : Access)
  /-- `SLOT_DIN`, R17. -/
  | slotDin (x : BitVec 11) (acc : Access)
  /-- `SLOT_MEAS0_H`, R18. -/
  | slotMeas0H (x : BitVec 11) (acc : Access)
  /-- `SLOT_MEAS0_L`, R18. -/
  | slotMeas0L (x : BitVec 11) (acc : Access)
  /-- `SLOT_MEAS1_H`, R18. -/
  | slotMeas1H (x : BitVec 11) (acc : Access)
  /-- `SLOT_MEAS1_L`, R18. -/
  | slotMeas1L (x : BitVec 11) (acc : Access)
  /-- `SLOT_MEAS2_H`, R18. -/
  | slotMeas2H (x : BitVec 11) (acc : Access)
  /-- `SLOT_MEAS2_L`, R18. -/
  | slotMeas2L (x : BitVec 11) (acc : Access)
  /-- `SLOT_MEAS3_H`, R18. -/
  | slotMeas3H (x : BitVec 11) (acc : Access)
  /-- `SLOT_MEAS3_L`, R18. -/
  | slotMeas3L (x : BitVec 11) (acc : Access)
  /-- `SLOT_TEMP_H`, R18. -/
  | slotTempH (x : BitVec 11) (acc : Access)
  /-- `SLOT_TEMP_L`, R18. -/
  | slotTempL (x : BitVec 11) (acc : Access)
  /-- `SLOT_BL`, R19. -/
  | slotBl (x : BitVec 11) (acc : Access)
  /-- `SLOT_WK`, R20. -/
  | slotWk (x : BitVec 11) (acc : Access)
  /-- `SLOT_SHDN`, R21. -/
  | slotShdn (x : BitVec 11) (acc : Access)
  /-- `SLOT_PRESS`, R22. -/
  | slotPress (x : BitVec 11) (acc : Access)
  /-- `SLOT_NVCTL`, R23. -/
  | slotNvctl (x : BitVec 11) (acc : Access)
  /-- `SLOT_TIME_3`, R24. -/
  | slotTime3 (x : BitVec 11) (acc : Access)
  /-- `SLOT_TIME_2`, R24. -/
  | slotTime2 (x : BitVec 11) (acc : Access)
  /-- `SLOT_TIME_1`, R24. -/
  | slotTime1 (x : BitVec 11) (acc : Access)
  /-- `SLOT_TIME_0`, R24. -/
  | slotTime0 (x : BitVec 11) (acc : Access)
  /-- `SLOT_ALARM_3`, R25. -/
  | slotAlarm3 (x : BitVec 11) (acc : Access)
  /-- `SLOT_ALARM_2`, R25. -/
  | slotAlarm2 (x : BitVec 11) (acc : Access)
  /-- `SLOT_ALARM_1`, R25. -/
  | slotAlarm1 (x : BitVec 11) (acc : Access)
  /-- `SLOT_ALARM_0`, R25. -/
  | slotAlarm0 (x : BitVec 11) (acc : Access)
  /-- `SLOT_CORR_3`, R26. -/
  | slotCorr3 (x : BitVec 11) (acc : Access)
  /-- `SLOT_CORR_2`, R26. -/
  | slotCorr2 (x : BitVec 11) (acc : Access)
  /-- `SLOT_CORR_1`, R26. -/
  | slotCorr1 (x : BitVec 11) (acc : Access)
  /-- `SLOT_CORR_0`, R26. -/
  | slotCorr0 (x : BitVec 11) (acc : Access)
  /-- `SLOT_SLOT31`, R27. -/
  | slotSlot31 (x : BitVec 11) (acc : Access)
  -- trigger bytes (30_encoding.md R103)
  /-- `SHDN_REQUEST`: the byte `SHDN_SENTINEL` to slot 16, 10_state.md R21. -/
  | shdnRequest
  /-- `NV_COMMIT`: the byte `NV_CMD_COMMIT` to slot 18, 46_boundary_modules.md R302. -/
  | nvCommit
  /-- `NV_RELOAD`: the byte `NV_CMD_RELOAD` to slot 18, R303. -/
  | nvReload
  /-- `NV_OTHER`: any other byte to slot 18, 20_memory.md R62. -/
  | nvOther (v : Byte)
  -- bit-field layouts (30_encoding.md R99 to R102)
  /-- `STATUS_FIELDS`, R99. -/
  | statusFields (crit short : Bool) (reason : BitVec 3)
  /-- `DIN_FIELDS`, R100. -/
  | dinFields (card button chg1 chg0 : Bool)
  /-- `WK_FIELDS`, R101; `x` holds the five bits without a name, 0 at the three named positions. -/
  | wkFields (alarm chgStart chgDone : Bool) (x : Byte)
  /-- `VERSION_FIELDS`, R102. -/
  | versionFields (major minor : BitVec 4)
deriving DecidableEq, Repr

end Sys2Proof
end

