-- ==== Sys2Proof/WellFormed.lean ====
section
/-! DEFINITION. Which instructions are well formed in which context: a bus-event row only where the spec's
"When" line says it is the row that applies, operands inside the ranges the spec gives them. -/

namespace Sys2Proof

/-- The event is `RACK` or `RNACK` (the two of 40_register_bus.md R141's second row). -/
def WireEvent.isAckEvent : WireEvent → Bool
  | .rack => true
  | .rnack => true
  | _ => false

/-- The event is `WDATA`, `RACK` or `RNACK` (40_register_bus.md R142). -/
def WireEvent.isDataEvent : WireEvent → Bool
  | .wdata _ => true
  | .rack => true
  | .rnack => true
  | _ => false

/-- The context expects a byte from the host: phase AddrHi, AddrLo, or Data with direction W
(40_register_bus.md R141). -/
def Ctx.expectsWrite (c : Ctx) : Bool :=
  c.phase == .addrHi || c.phase == .addrLo || (c.phase == .data && c.dir == .w)

/-- The pointer bits 15:12 are not all 0, so the pointer is in the control region (20_memory.md R60);
`x` is the pointer's bits 15:5. -/
def slotPrefixOk (x : BitVec 11) : Bool := decide (128 ≤ x.toNat)

/-- The instruction is well formed in the context: for a bus event, the row of 40_register_bus.md R151 that
applies there; for the others, operands in range (46_boundary_modules.md R308, 30_encoding.md R99 to R103,
20_memory.md R60). A persistent-region transfer has a count of 16 bits (assumption log 2) and is not bounded by 4096:
the bound of R110 binds the host, and the slave runs past it (70_reset_and_hazards.md R374, assumption log 27). -/
def Instr.wellFormed (c : Ctx) : Instr → Bool
  | .startOther a _ => c.mode == .active && a != c.cfg.slaveAddr
  | .startW => c.mode == .active
  | .startR => c.mode == .active
  | .addrHi _ => c.mode == .active && c.phase == .addrHi
  | .addrLo _ => c.mode == .active && c.phase == .addrLo
  | .wrData _ => c.mode == .active && c.phase == .data && c.dir == .w
  | .rdAck => c.mode == .active && c.phase == .data && c.dir == .r
  | .rdNack => c.mode == .active && c.phase == .data && c.dir == .r
  | .stop => c.mode == .active
  | .busErr => c.mode == .active
  | .wdataInRead _ => c.mode == .active && c.phase == .data && c.dir == .r
  | .rackInWrite e => c.mode == .active && c.expectsWrite && e.isAckEvent
  | .notAddressed e => c.mode == .active && c.phase == .idle && e.isDataEvent
  | .busInactive _ => c.mode != .active
  | .hangguard => true
  | .suspend => true
  | .resume => true
  | .shutdown => true
  | .tick => true
  | .loopStep _ => true
  | .evalPs => true
  | .evalRtc => true
  | .evalDio _ => true
  | .evalInd => true
  | .evalRun => true
  | .wdtExpire _ => true
  | .second => true
  | .sample _ v => decide (v.toNat < 2 ^ c.cfg.adcBits)
  | .powerOn _ => true
  | .wakeup _ => true
  | .write8 _ _ => true
  | .write16 _ _ => true
  | .write32 _ _ => true
  | .read8 _ => true
  | .read16 _ => true
  | .read32 _ => true
  | .nvwrite _ d => decide (d.length < 2 ^ 16)
  | .nvread _ n => decide (1 ≤ n) && decide (n < 2 ^ 16)
  | .setptr _ => true
  | .ptrPersist _ _ => true
  | .slotId x _ => slotPrefixOk x
  | .slotVersion x _ => slotPrefixOk x
  | .slotStatus x _ => slotPrefixOk x
  | .slotDin x _ => slotPrefixOk x
  | .slotMeas0H x _ => slotPrefixOk x
  | .slotMeas0L x _ => slotPrefixOk x
  | .slotMeas1H x _ => slotPrefixOk x
  | .slotMeas1L x _ => slotPrefixOk x
  | .slotMeas2H x _ => slotPrefixOk x
  | .slotMeas2L x _ => slotPrefixOk x
  | .slotMeas3H x _ => slotPrefixOk x
  | .slotMeas3L x _ => slotPrefixOk x
  | .slotTempH x _ => slotPrefixOk x
  | .slotTempL x _ => slotPrefixOk x
  | .slotBl x _ => slotPrefixOk x
  | .slotWk x _ => slotPrefixOk x
  | .slotShdn x _ => slotPrefixOk x
  | .slotPress x _ => slotPrefixOk x
  | .slotNvctl x _ => slotPrefixOk x
  | .slotTime3 x _ => slotPrefixOk x
  | .slotTime2 x _ => slotPrefixOk x
  | .slotTime1 x _ => slotPrefixOk x
  | .slotTime0 x _ => slotPrefixOk x
  | .slotAlarm3 x _ => slotPrefixOk x
  | .slotAlarm2 x _ => slotPrefixOk x
  | .slotAlarm1 x _ => slotPrefixOk x
  | .slotAlarm0 x _ => slotPrefixOk x
  | .slotCorr3 x _ => slotPrefixOk x
  | .slotCorr2 x _ => slotPrefixOk x
  | .slotCorr1 x _ => slotPrefixOk x
  | .slotCorr0 x _ => slotPrefixOk x
  | .slotSlot31 x _ => slotPrefixOk x
  | .shdnRequest => true
  | .nvCommit => true
  | .nvReload => true
  | .nvOther v => v != c.cfg.nvCmdCommit && v != c.cfg.nvCmdReload
  | .statusFields _ _ _ => true
  | .dinFields _ _ _ _ => true
  | .wkFields _ _ _ x =>
    !x.getLsbD c.cfg.wkAlarmBit && !x.getLsbD c.cfg.wkChgStartBit && !x.getLsbD c.cfg.wkChgDoneBit
  | .versionFields _ _ => true

end Sys2Proof
end

