-- ==== Sys2Proof/Decode.lean ====
section
/-! DEFINITION. The decoder and the encoder of events: bit-field and byte-order helpers, the wire event's row in a
context (40_register_bus.md R151), the pointer word's row (20_memory.md R60, 30_encoding.md R98), trigger bytes
(R103), field layouts (R99 to R102), and the bytes by which the model writes an event down (assumption log 2).
The decoder is total on any bytes and rejects by name. -/

namespace Sys2Proof

/-! ## Bytes of wider values (20_memory.md R64, 30_encoding.md R97, R104, R105: the most significant first) -/

/-- Bits 15:8. -/
def hiByte (v : Half) : Byte := v.extractLsb' 8 8

/-- Bits 7:0. -/
def loByte (v : Half) : Byte := v.extractLsb' 0 8

/-- `{hi, lo}` (00_scope.md R8). -/
def join16 (hi lo : Byte) : Half := hi ++ lo

/-- Byte `j` of a 32-bit field, byte 0 the most significant (30_encoding.md R104). -/
def byteOf32 (v : Word) (j : Nat) : Byte := v.extractLsb' (24 - 8 * j) 8

/-- `{b0, b1, b2, b3}` (00_scope.md R8). -/
def join32 (b0 b1 b2 b3 : Byte) : Word := b0 ++ b1 ++ b2 ++ b3

/-! ## Bits of a byte -/

/-- `v` with bit `i` set to `b` (no change for `i` above 7). -/
def putBit (v : Byte) (i : Nat) (b : Bool) : Byte :=
  if b then v ||| (1#8 <<< i) else v &&& ~~~(1#8 <<< i)

/-- The 3-bit field of `v` whose least significant bit is `lsb`. -/
def getField3 (v : Byte) (lsb : Nat) : BitVec 3 := v.extractLsb' lsb 3

/-- `v` with the 3-bit field at `lsb` replaced. -/
def putField3 (v : Byte) (lsb : Nat) (r : BitVec 3) : Byte :=
  (v &&& ~~~(7#8 <<< lsb)) ||| (r.zeroExtend 8 <<< lsb)

/-! ## The field layouts (30_encoding.md R99 to R102) -/

/-- The `STATUS` byte of three fields, its other bits 0 (R99). -/
def packStatus (c : Config) (crit short : Bool) (reason : BitVec 3) : Byte :=
  putBit (putBit (putField3 0#8 c.stReasonLsb reason) c.stShortBit short) c.stCritBit crit

/-- The `DIN` byte of four fields, its other bits 0 (R100). -/
def packDin (c : Config) (card button chg1 chg0 : Bool) : Byte :=
  putBit (putBit (putBit (putBit 0#8 c.diChgLsb chg0) (c.diChgLsb + 1) chg1) c.diBtnBit button)
    c.diCardBit card

/-- The `WK` byte of three fields over the unnamed bits `x` (R101). -/
def packWk (c : Config) (alarm chgStart chgDone : Bool) (x : Byte) : Byte :=
  putBit (putBit (putBit x c.wkAlarmBit alarm) c.wkChgStartBit chgStart) c.wkChgDoneBit chgDone

/-- The bits of a `WK` byte that have no name: the byte with its three named bits cleared (R101). -/
def wkUnnamed (c : Config) (b : Byte) : Byte := packWk c false false false b

/-- The `VERSION` byte: the major nibble high (R102). -/
def packVersion (major minor : BitVec 4) : Byte := major ++ minor

/-! ## The address byte -/

/-- The direction bit: 0 is write, 1 is read (R90). -/
def Dir.toBit : Dir → BitVec 1
  | .w => 0#1
  | .r => 1#1

/-- The direction a bit stands for (R90). -/
def Dir.ofBit (b : BitVec 1) : Dir := if b = 0#1 then .w else .r

/-- The address byte `{a[6:0], rw}` (R91). -/
def addressByte (a : BitVec 7) (rw : Dir) : Byte := a ++ rw.toBit

/-- The start event that an address byte stands for (R91). -/
def startOfByte (b : Byte) : WireEvent := .start (b.extractLsb' 1 7) (Dir.ofBit (b.extractLsb' 0 1))

/-! ## The row of a wire event in a context -/

/-- The row a `WDATA(b)` is (R151, column WDATA). -/
def rowOfWdata (c : Ctx) (b : Byte) : Instr :=
  match c.phase with
  | .idle => .notAddressed (.wdata b)
  | .addrHi => .addrHi b
  | .addrLo => .addrLo b
  | .data =>
    match c.dir with
    | .w => .wrData b
    | .r => .wdataInRead b

/-- The row a `RACK` is (R151, column RACK). -/
def rowOfRack (c : Ctx) : Instr :=
  match c.phase, c.dir with
  | .idle, _ => .notAddressed .rack
  | .data, .r => .rdAck
  | _, _ => .rackInWrite .rack

/-- The row a `RNACK` is (R151, column RNACK). -/
def rowOfRnack (c : Ctx) : Instr :=
  match c.phase, c.dir with
  | .idle, _ => .notAddressed .rnack
  | .data, .r => .rdNack
  | _, _ => .rackInWrite .rnack

/-- The row of the table that a wire event is in a context (40_register_bus.md R130, R150, R151): every event in
every context is exactly one row. -/
def rowOfWire (c : Ctx) (e : WireEvent) : Instr :=
  if c.mode = .active then
    match e with
    | .start a rw =>
      if a = c.cfg.slaveAddr then
        match rw with
        | .w => .startW
        | .r => .startR
      else .startOther a rw
    | .wdata b => rowOfWdata c b
    | .rack => rowOfRack c
    | .rnack => rowOfRnack c
    | .stop => .stop
    | .busErr => .busErr
  else .busInactive e

/-! ## The row of a pointer word -/

/-- The row of control slot `k` (30_encoding.md R98), `x` the pointer's bits 15:5. -/
def slotRow (k : Nat) (x : BitVec 11) (acc : Access) : Instr :=
  match k with
  | 0 => .slotId x acc
  | 1 => .slotVersion x acc
  | 2 => .slotStatus x acc
  | 3 => .slotDin x acc
  | 4 => .slotMeas0H x acc
  | 5 => .slotMeas0L x acc
  | 6 => .slotMeas1H x acc
  | 7 => .slotMeas1L x acc
  | 8 => .slotMeas2H x acc
  | 9 => .slotMeas2L x acc
  | 10 => .slotMeas3H x acc
  | 11 => .slotMeas3L x acc
  | 12 => .slotTempH x acc
  | 13 => .slotTempL x acc
  | 14 => .slotBl x acc
  | 15 => .slotWk x acc
  | 16 => .slotShdn x acc
  | 17 => .slotPress x acc
  | 18 => .slotNvctl x acc
  | 19 => .slotTime3 x acc
  | 20 => .slotTime2 x acc
  | 21 => .slotTime1 x acc
  | 22 => .slotTime0 x acc
  | 23 => .slotAlarm3 x acc
  | 24 => .slotAlarm2 x acc
  | 25 => .slotAlarm1 x acc
  | 26 => .slotAlarm0 x acc
  | 27 => .slotCorr3 x acc
  | 28 => .slotCorr2 x acc
  | 29 => .slotCorr1 x acc
  | 30 => .slotCorr0 x acc
  | _ => .slotSlot31 x acc

/-- The row that a pointer value selects (20_memory.md R60): below 4096 the persistent region, otherwise slot
`p[4:0]`. -/
def rowOfPointer (p : Half) (acc : Access) : Instr :=
  if p.toNat < Config.persistSize then .ptrPersist (p.extractLsb' 0 12) acc
  else slotRow (p.toNat % Config.ctrlSlots) (p.extractLsb' 5 11) acc

/-- The pointer of a slot row: `{x, k}` (30_encoding.md R112, pattern `rrrrxxxxxxxsssss`). -/
def slotPointer (x : BitVec 11) (k : Nat) : Half := x ++ BitVec.ofNat 5 k

/-- The pointer of `PTR_PERSIST` (30_encoding.md R112, pattern `0000pppppppppppp`). -/
def persistPointer (p : BitVec 12) : Half := 0#4 ++ p

/-! ## The bytes by which an event is written down (assumption log 2) -/

/-- The kinds of event, each with a byte of its own. -/
inductive Tag where
  | start | wdata | rack | rnack | stop | busErr
  | hangguard | suspend | resume | shutdown | tick | loopStep | evalPs | evalRtc | evalDio | evalInd | evalRun
  | wdtExpire | second | sample | powerOn | wakeup
  | write8 | write16 | write32 | read8 | read16 | read32 | nvwrite | nvread | setptr
  | pointer | shdnByte | nvctlByte | statusFields | dinFields | wkFields | versionFields
deriving DecidableEq, Repr

/-- The byte that opens an event of each kind (assumption log 2: the spec gives none). -/
def Tag.toByte : Tag → Byte
  | .start => 0x01#8
  | .wdata => 0x02#8
  | .rack => 0x03#8
  | .rnack => 0x04#8
  | .stop => 0x05#8
  | .busErr => 0x06#8
  | .hangguard => 0x10#8
  | .suspend => 0x11#8
  | .resume => 0x12#8
  | .shutdown => 0x13#8
  | .tick => 0x14#8
  | .loopStep => 0x15#8
  | .evalPs => 0x16#8
  | .evalRtc => 0x17#8
  | .evalDio => 0x18#8
  | .evalInd => 0x19#8
  | .evalRun => 0x1A#8
  | .wdtExpire => 0x1B#8
  | .second => 0x1C#8
  | .sample => 0x1D#8
  | .powerOn => 0x1E#8
  | .wakeup => 0x1F#8
  | .write8 => 0x20#8
  | .write16 => 0x21#8
  | .write32 => 0x22#8
  | .read8 => 0x23#8
  | .read16 => 0x24#8
  | .read32 => 0x25#8
  | .nvwrite => 0x26#8
  | .nvread => 0x27#8
  | .setptr => 0x28#8
  | .pointer => 0x30#8
  | .shdnByte => 0x31#8
  | .nvctlByte => 0x32#8
  | .statusFields => 0x33#8
  | .dinFields => 0x34#8
  | .wkFields => 0x35#8
  | .versionFields => 0x36#8

/-- Every kind of event. -/
def Tag.all : List Tag :=
  [.start, .wdata, .rack, .rnack, .stop, .busErr, .hangguard, .suspend, .resume, .shutdown, .tick, .loopStep,
   .evalPs, .evalRtc, .evalDio, .evalInd, .evalRun, .wdtExpire, .second, .sample, .powerOn, .wakeup] ++
  [.write8, .write16, .write32, .read8, .read16, .read32, .nvwrite, .nvread, .setptr, .pointer, .shdnByte,
   .nvctlByte, .statusFields, .dinFields, .wkFields, .versionFields]

/-- The kind of event that a byte opens, none for a byte that opens no event. -/
def Tag.ofByte (b : Byte) : Option Tag := Tag.all.find? (fun t => t.toByte == b)

/-- Why bytes encode no event. Such bytes are passed over (`Machine.pastNonEvent`). Each is safe: a hardware run has
no such bytes, and passing over them changes nothing (assumption log 2). -/
inductive DecodeError where
  /-- There is no byte at all. -/
  | noBytes
  /-- The first byte opens no event. -/
  | unknownTag (b : Byte)
  /-- The event's bytes end too early. -/
  | truncated (t : Tag)
  /-- A channel byte above 4. -/
  | badChannel (b : Byte)
  /-- A raw sample of more than `ADC_BITS` bits (46_boundary_modules.md R308). -/
  | sampleTooWide (v : Half)
  /-- An access byte above 2, or a data byte where no data goes. -/
  | badAccess (b d : Byte)
  /-- `nvread` of no byte: its expansion reads at least one (30_encoding.md R110). -/
  | emptyRead (a : Half)
deriving DecidableEq, Repr

/-- What the decoder answers. -/
abbrev Decoded := Except DecodeError (Instr × List Byte)

/-- One operand byte. -/
def take1 (t : Tag) (r : List Byte) (k : Byte → List Byte → Decoded) : Decoded :=
  match r with
  | b :: r => k b r
  | [] => .error (.truncated t)

/-- Two operand bytes, the most significant first. -/
def take16 (t : Tag) (r : List Byte) (k : Half → List Byte → Decoded) : Decoded :=
  match r with
  | h :: l :: r => k (join16 h l) r
  | _ => .error (.truncated t)

/-- Four operand bytes, the most significant first. -/
def take32 (t : Tag) (r : List Byte) (k : Word → List Byte → Decoded) : Decoded :=
  match r with
  | b0 :: b1 :: b2 :: b3 :: r => k (join32 b0 b1 b2 b3) r
  | _ => .error (.truncated t)

/-- The pin byte: bit 0 `btn`, bit 1 `chg0`, bit 2 `chg1`, bit 3 `card`; its other bits stand for no pin and are not
read (assumption log 2). -/
def pinsOfByte (b : Byte) : Pins :=
  { btn := b.getLsbD 0, chg0 := b.getLsbD 1, chg1 := b.getLsbD 2, card := b.getLsbD 3 }

/-- The byte of pin levels that `pinsOfByte` reads. -/
def byteOfPins (p : Pins) : Byte :=
  putBit (putBit (putBit (putBit 0#8 0 p.btn) 1 p.chg0) 2 p.chg1) 3 p.card

/-- One pin byte. -/
def takePins (t : Tag) (r : List Byte) (k : Pins → List Byte → Decoded) : Decoded :=
  take1 t r (fun b r => k (pinsOfByte b) r)

/-- The channel a byte stands for: 0..3 an analog channel, 4 the temperature sensor (46_boundary_modules.md R308). -/
def channelOfByte (b : Byte) : Option Channel :=
  if h : b.toNat < 4 then some (.analog ⟨b.toNat, h⟩)
  else if b.toNat = 4 then some .temperature else none

/-- The channel's number (46_boundary_modules.md R308). -/
def Channel.number : Channel → Nat
  | .analog j => j.val
  | .temperature => 4

/-- The access two bytes stand for (assumption log 2, 7). -/
def accessOfBytes (a d : Byte) : Option Access :=
  if a = 0#8 ∧ d = 0#8 then some .point
  else if a = 1#8 ∧ d = 0#8 then some .read
  else if a = 2#8 then some (.write d)
  else none

/-- The two bytes of an access. -/
def bytesOfAccess : Access → List Byte
  | .point => [0#8, 0#8]
  | .read => [1#8, 0#8]
  | .write d => [2#8, d]

/-- A pointer row: the pointer, then the access. -/
def decodePointer (r : List Byte) : Decoded :=
  take16 .pointer r (fun p r =>
    match r with
    | a :: d :: r =>
      match accessOfBytes a d with
      | some acc => .ok (rowOfPointer p acc, r)
      | none => .error (.badAccess a d)
    | _ => .error (.truncated .pointer))

/-- A sample: the channel byte, then the raw value. -/
def decodeSample (c : Ctx) (r : List Byte) : Decoded :=
  take1 .sample r (fun b r =>
    match channelOfByte b with
    | some ch =>
      take16 .sample r (fun v r =>
        if v.toNat < 2 ^ c.cfg.adcBits then .ok (.sample ch v, r) else .error (.sampleTooWide v))
    | none => .error (.badChannel b))

/-- `nvwrite`: the address, the count, then the bytes (30_encoding.md R110). Bytes past 4095 go where the pointer
leads (70_reset_and_hazards.md R374). -/
def decodeNvwrite (r : List Byte) : Decoded :=
  take16 .nvwrite r (fun a r =>
    take16 .nvwrite r (fun n r =>
      if r.length < n.toNat then .error (.truncated .nvwrite)
      else .ok (.nvwrite a (r.take n.toNat), r.drop n.toNat)))

/-- `nvread`: the address and the count (30_encoding.md R110); past 4095 as in 70_reset_and_hazards.md R374. -/
def decodeNvread (r : List Byte) : Decoded :=
  take16 .nvread r (fun a r =>
    take16 .nvread r (fun n r =>
      if n.toNat = 0 then .error (.emptyRead a) else .ok (.nvread a n.toNat, r)))

/-- A byte to `SHDN` (30_encoding.md R103, 10_state.md R21): the sentinel; any other byte, which no trigger row of the
table covers, is an ordinary write of slot 16 at its canonical address 0x1010 (assumption log 8). -/
def rowOfShdnByte (c : Config) (b : Byte) : Instr :=
  if b = c.shdnSentinel then .shdnRequest else .slotShdn 0x080#11 (.write b)

/-- A byte to `NVCTL` (30_encoding.md R103): one of the two sentinels, or any other byte. -/
def rowOfNvctlByte (c : Config) (b : Byte) : Instr :=
  if b = c.nvCmdCommit then .nvCommit
  else if b = c.nvCmdReload then .nvReload
  else .nvOther b

/-- A `STATUS` byte: its fields; its other bits read 0, whatever they are here (30_encoding.md R99). -/
def rowOfStatusByte (c : Config) (b : Byte) : Instr :=
  .statusFields (b.getLsbD c.stCritBit) (b.getLsbD c.stShortBit) (getField3 b c.stReasonLsb)

/-- A `DIN` byte: its fields; its other bits read 0, whatever they are here (30_encoding.md R100). -/
def rowOfDinByte (c : Config) (b : Byte) : Instr :=
  .dinFields (b.getLsbD c.diCardBit) (b.getLsbD c.diBtnBit) (b.getLsbD (c.diChgLsb + 1)) (b.getLsbD c.diChgLsb)

/-- A `WK` byte: its three fields and its unnamed bits (30_encoding.md R101). -/
def rowOfWkByte (c : Config) (b : Byte) : Instr :=
  .wkFields (b.getLsbD c.wkAlarmBit) (b.getLsbD c.wkChgStartBit) (b.getLsbD c.wkChgDoneBit) (wkUnnamed c b)

/-- The event of one kind, read from the bytes after its tag. -/
def decodeBody (c : Ctx) (t : Tag) (r : List Byte) : Decoded :=
  match t with
  | .start => take1 t r (fun b r => .ok (rowOfWire c (startOfByte b), r))
  | .wdata => take1 t r (fun b r => .ok (rowOfWire c (.wdata b), r))
  | .rack => .ok (rowOfWire c .rack, r)
  | .rnack => .ok (rowOfWire c .rnack, r)
  | .stop => .ok (rowOfWire c .stop, r)
  | .busErr => .ok (rowOfWire c .busErr, r)
  | .hangguard => .ok (.hangguard, r)
  | .suspend => .ok (.suspend, r)
  | .resume => .ok (.resume, r)
  | .shutdown => .ok (.shutdown, r)
  | .tick => .ok (.tick, r)
  | .loopStep => takePins t r (fun p r => .ok (.loopStep p, r))
  | .evalPs => .ok (.evalPs, r)
  | .evalRtc => .ok (.evalRtc, r)
  | .evalDio => takePins t r (fun p r => .ok (.evalDio p, r))
  | .evalInd => .ok (.evalInd, r)
  | .evalRun => .ok (.evalRun, r)
  | .wdtExpire => takePins t r (fun p r => .ok (.wdtExpire p, r))
  | .second => .ok (.second, r)
  | .sample => decodeSample c r
  | .powerOn => takePins t r (fun p r => .ok (.powerOn p, r))
  | .wakeup => takePins t r (fun p r => .ok (.wakeup p, r))
  | .write8 => take16 t r (fun a r => take1 t r (fun v r => .ok (.write8 a v, r)))
  | .write16 => take16 t r (fun a r => take16 t r (fun v r => .ok (.write16 a v, r)))
  | .write32 => take16 t r (fun a r => take32 t r (fun v r => .ok (.write32 a v, r)))
  | .read8 => take16 t r (fun a r => .ok (.read8 a, r))
  | .read16 => take16 t r (fun a r => .ok (.read16 a, r))
  | .read32 => take16 t r (fun a r => .ok (.read32 a, r))
  | .nvwrite => decodeNvwrite r
  | .nvread => decodeNvread r
  | .setptr => take16 t r (fun a r => .ok (.setptr a, r))
  | .pointer => decodePointer r
  | .shdnByte => take1 t r (fun b r => .ok (rowOfShdnByte c.cfg b, r))
  | .nvctlByte => take1 t r (fun b r => .ok (rowOfNvctlByte c.cfg b, r))
  | .statusFields => take1 t r (fun b r => .ok (rowOfStatusByte c.cfg b, r))
  | .dinFields => take1 t r (fun b r => .ok (rowOfDinByte c.cfg b, r))
  | .wkFields => take1 t r (fun b r => .ok (rowOfWkByte c.cfg b, r))
  | .versionFields =>
    take1 t r (fun b r => .ok (.versionFields (b.extractLsb' 4 4) (b.extractLsb' 0 4), r))

/-- The first event of a list of bytes in a context, and the bytes after it; total, rejecting by name. -/
def decode (c : Ctx) (bs : List Byte) : Decoded :=
  match bs with
  | [] => .error .noBytes
  | b :: r =>
    match Tag.ofByte b with
    | some t => decodeBody c t r
    | none => .error (.unknownTag b)

/-! ## The encoder -/

/-- The bytes of a wire event. -/
def encodeWire : WireEvent → List Byte
  | .start a rw => [Tag.start.toByte, addressByte a rw]
  | .wdata b => [Tag.wdata.toByte, b]
  | .rack => [Tag.rack.toByte]
  | .rnack => [Tag.rnack.toByte]
  | .stop => [Tag.stop.toByte]
  | .busErr => [Tag.busErr.toByte]

/-- The two bytes of a 16-bit value, the most significant first. -/
def bytes16 (v : Half) : List Byte := [hiByte v, loByte v]

/-- The four bytes of a 32-bit value, the most significant first. -/
def bytes32 (v : Word) : List Byte := [byteOf32 v 0, byteOf32 v 1, byteOf32 v 2, byteOf32 v 3]

/-- The bytes of a pointer row. -/
def encodePointer (p : Half) (acc : Access) : List Byte :=
  Tag.pointer.toByte :: (bytes16 p ++ bytesOfAccess acc)

/-- The bytes of a slot's row. -/
def encodeSlot (k : Nat) (x : BitVec 11) (acc : Access) : List Byte := encodePointer (slotPointer x k) acc

/-- The bytes of an instruction under a configuration: the address bytes, pointers, trigger bytes and field
layouts of 30_encoding.md behind the model's tag bytes. -/
def encode (c : Config) : Instr → List Byte
  | .startOther a rw => encodeWire (.start a rw)
  | .startW => encodeWire (.start c.slaveAddr .w)
  | .startR => encodeWire (.start c.slaveAddr .r)
  | .addrHi b => encodeWire (.wdata b)
  | .addrLo b => encodeWire (.wdata b)
  | .wrData b => encodeWire (.wdata b)
  | .rdAck => encodeWire .rack
  | .rdNack => encodeWire .rnack
  | .stop => encodeWire .stop
  | .busErr => encodeWire .busErr
  | .wdataInRead b => encodeWire (.wdata b)
  | .rackInWrite e => encodeWire e
  | .notAddressed e => encodeWire e
  | .busInactive e => encodeWire e
  | .hangguard => [Tag.hangguard.toByte]
  | .suspend => [Tag.suspend.toByte]
  | .resume => [Tag.resume.toByte]
  | .shutdown => [Tag.shutdown.toByte]
  | .tick => [Tag.tick.toByte]
  | .loopStep p => [Tag.loopStep.toByte, byteOfPins p]
  | .evalPs => [Tag.evalPs.toByte]
  | .evalRtc => [Tag.evalRtc.toByte]
  | .evalDio p => [Tag.evalDio.toByte, byteOfPins p]
  | .evalInd => [Tag.evalInd.toByte]
  | .evalRun => [Tag.evalRun.toByte]
  | .wdtExpire p => [Tag.wdtExpire.toByte, byteOfPins p]
  | .second => [Tag.second.toByte]
  | .sample ch v => [Tag.sample.toByte, BitVec.ofNat 8 ch.number] ++ bytes16 v
  | .powerOn p => [Tag.powerOn.toByte, byteOfPins p]
  | .wakeup p => [Tag.wakeup.toByte, byteOfPins p]
  | .write8 a v => Tag.write8.toByte :: (bytes16 a ++ [v])
  | .write16 a v => Tag.write16.toByte :: (bytes16 a ++ bytes16 v)
  | .write32 a v => Tag.write32.toByte :: (bytes16 a ++ bytes32 v)
  | .read8 a => Tag.read8.toByte :: bytes16 a
  | .read16 a => Tag.read16.toByte :: bytes16 a
  | .read32 a => Tag.read32.toByte :: bytes16 a
  | .nvwrite a d => Tag.nvwrite.toByte :: (bytes16 a ++ bytes16 (BitVec.ofNat 16 d.length) ++ d)
  | .nvread a n => Tag.nvread.toByte :: (bytes16 a ++ bytes16 (BitVec.ofNat 16 n))
  | .setptr a => Tag.setptr.toByte :: bytes16 a
  | .ptrPersist p acc => encodePointer (persistPointer p) acc
  | .slotId x acc => encodeSlot 0 x acc
  | .slotVersion x acc => encodeSlot 1 x acc
  | .slotStatus x acc => encodeSlot 2 x acc
  | .slotDin x acc => encodeSlot 3 x acc
  | .slotMeas0H x acc => encodeSlot 4 x acc
  | .slotMeas0L x acc => encodeSlot 5 x acc
  | .slotMeas1H x acc => encodeSlot 6 x acc
  | .slotMeas1L x acc => encodeSlot 7 x acc
  | .slotMeas2H x acc => encodeSlot 8 x acc
  | .slotMeas2L x acc => encodeSlot 9 x acc
  | .slotMeas3H x acc => encodeSlot 10 x acc
  | .slotMeas3L x acc => encodeSlot 11 x acc
  | .slotTempH x acc => encodeSlot 12 x acc
  | .slotTempL x acc => encodeSlot 13 x acc
  | .slotBl x acc => encodeSlot 14 x acc
  | .slotWk x acc => encodeSlot 15 x acc
  | .slotShdn x acc => encodeSlot 16 x acc
  | .slotPress x acc => encodeSlot 17 x acc
  | .slotNvctl x acc => encodeSlot 18 x acc
  | .slotTime3 x acc => encodeSlot 19 x acc
  | .slotTime2 x acc => encodeSlot 20 x acc
  | .slotTime1 x acc => encodeSlot 21 x acc
  | .slotTime0 x acc => encodeSlot 22 x acc
  | .slotAlarm3 x acc => encodeSlot 23 x acc
  | .slotAlarm2 x acc => encodeSlot 24 x acc
  | .slotAlarm1 x acc => encodeSlot 25 x acc
  | .slotAlarm0 x acc => encodeSlot 26 x acc
  | .slotCorr3 x acc => encodeSlot 27 x acc
  | .slotCorr2 x acc => encodeSlot 28 x acc
  | .slotCorr1 x acc => encodeSlot 29 x acc
  | .slotCorr0 x acc => encodeSlot 30 x acc
  | .slotSlot31 x acc => encodeSlot 31 x acc
  | .shdnRequest => [Tag.shdnByte.toByte, c.shdnSentinel]
  | .nvCommit => [Tag.nvctlByte.toByte, c.nvCmdCommit]
  | .nvReload => [Tag.nvctlByte.toByte, c.nvCmdReload]
  | .nvOther v => [Tag.nvctlByte.toByte, v]
  | .statusFields crit short reason => [Tag.statusFields.toByte, packStatus c crit short reason]
  | .dinFields card button chg1 chg0 => [Tag.dinFields.toByte, packDin c card button chg1 chg0]
  | .wkFields alarm chgStart chgDone x => [Tag.wkFields.toByte, packWk c alarm chgStart chgDone x]
  | .versionFields major minor => [Tag.versionFields.toByte, packVersion major minor]

/-! ## A word of the opcode table (assumption log 20) -/

/-- The bytes of the event that an 8-bit table word is under CFG0. Several rows of the table share 8-bit words;
the row with the most fixed bits wins: a trigger byte (8 fixed bits), the `DIN` layout (4), the `STATUS` layout
(3), and otherwise the word is an address byte. The bytes of `WDATA` rows have no pattern of their own. -/
def tableBytes8 (b : Byte) : List Byte :=
  if b = Config.cfg0.shdnSentinel then [Tag.shdnByte.toByte, b]
  else if b = Config.cfg0.nvCmdCommit ∨ b = Config.cfg0.nvCmdReload then [Tag.nvctlByte.toByte, b]
  else if b &&& 0xF0#8 = 0#8 then [Tag.dinFields.toByte, b]
  else if b &&& 0x68#8 = 0#8 then [Tag.statusFields.toByte, b]
  else [Tag.start.toByte, b]

/-- The bytes of the event that a table word of `nbits` bits is: 8 bits as above, 16 bits a pointer word that is
loaded and not used (`Access.point`), no other width has a row. -/
def tableBytes (nbits w : Nat) : List Byte :=
  if nbits = 8 then tableBytes8 (BitVec.ofNat 8 w)
  else if nbits = 16 then encodePointer (BitVec.ofNat 16 w) .point
  else []

/-- The context in which table words are read: CFG0, the bus Active and no transaction begun. -/
def tableCtx : Ctx := { cfg := Config.cfg0, mode := .active, phase := .idle, dir := .w }

/-- The instruction that the decoder reads from a table word. -/
def decodeTableWord (nbits w : Nat) : Option Instr :=
  match decode tableCtx (tableBytes nbits w) with
  | .ok (i, _) => some i
  | .error _ => none

end Sys2Proof
end

