-- ==== Sys2Proof/Machine/State.lean ====
section
/-! DEFINITION. The state of the block as plain data (spec 10_state.md), the faults and refusals of a step, and
the state right after reset (70_reset_and_hazards.md R350). -/

namespace Sys2Proof.Machine

/-- A store of bytes as (address, byte) pairs in one canonical form: addresses strictly rising, no byte equal
to 0x00, which is what an unlisted address reads as (assumption log 15, 16). -/
abbrev Memory := List Host.Cell

/-- One response of the slave (30_encoding.md R93). -/
inductive Resp where
  /-- The slave acknowledges. -/
  | ack
  /-- The slave does not acknowledge. -/
  | nack
  /-- `TX(b)`: the slave sends the byte. -/
  | tx (b : Byte)
deriving DecidableEq, Repr

/-- Bus transaction state (10_state.md R29 to R34). -/
structure BusState where
  /-- `bus.phase`, R29. -/
  phase : Phase
  /-- `bus.ptr`, R30. -/
  ptr : Half
  /-- `bus.in_transfer`, R31. -/
  inTransfer : Bool
  /-- `bus.dir`, R32. -/
  dir : Dir
  /-- `bus.addr_hi`, R32. -/
  addrHi : Byte
  /-- `bus.ack`, R33. -/
  ack : Bool
  /-- `bus.mode`, R34. -/
  mode : BusMode
  /-- `bus.hg_run`, R34. -/
  hgRun : Bool
deriving DecidableEq, Repr

/-- Tick scheduler state (10_state.md R35). -/
structure SchedState where
  /-- `sched.sub`. -/
  sub : Nat
  /-- `sched.ms`. -/
  ms : Word
  /-- `sched.dec[i]`. -/
  dec : PerConsumer Nat
  /-- `sched.flag[i]`. -/
  flag : PerConsumer Bool
deriving DecidableEq, Repr

/-- A debounced line (10_state.md R38). -/
structure Line where
  /-- `dio.prev[L]`, the previous raw sample. -/
  prev : Bool
  /-- `dio.deb[L]`, the accepted level. -/
  deb : Bool
deriving DecidableEq, Repr

/-- Digital I/O monitor state (10_state.md R38). -/
structure DioState where
  /-- The button line. -/
  btn : Line
  /-- The first charge-status line. -/
  chg0 : Line
  /-- The second charge-status line. -/
  chg1 : Line
  /-- `dio.card`. -/
  card : Bool
  /-- `dio.btn_last`. -/
  btnLast : Bool
  /-- `dio.press_cnt`. -/
  pressCnt : Nat
  /-- `dio.short_latched`. -/
  shortLatched : Bool
deriving DecidableEq, Repr

/-- Clock state (10_state.md R40, R41). -/
structure RtcState where
  /-- `rtc.count`. -/
  count : Word
  /-- `rtc.alarm`. -/
  alarm : Word
  /-- `rtc.corr`, two's complement. -/
  corr : Word
  /-- `rtc.corr_cnt`, two's complement. -/
  corrCnt : Word
  /-- `rtc.alarm_en`. -/
  alarmEn : Bool
  /-- `rtc.corr_en`. -/
  corrEn : Bool
  /-- `rtc.wk_alarm_prev`, R41. -/
  wkAlarmPrev : Bool
deriving DecidableEq, Repr

/-- `ind.mode` (10_state.md R42). -/
inductive IndMode where
  | off | solid | fadeUp | fadeDown | blinkOn | blinkOff
deriving DecidableEq, Repr

/-- Indicator state (10_state.md R42). -/
structure IndState where
  /-- `ind.en`. -/
  en : Bool
  /-- `ind.sel`. -/
  sel : ChgState
  /-- `ind.mode`. -/
  mode : IndMode
  /-- `ind.level`. -/
  level : Byte
  /-- `ind.cnt`. -/
  cnt : Nat
deriving DecidableEq, Repr

/-- `run` (10_state.md R44). -/
inductive RunState where
  | wake | charge | wait | power | powerOff | sleep
deriving DecidableEq, Repr

/-- `ps.state` (10_state.md R48). -/
inductive PsPhase where
  | idle | writing | reading
deriving DecidableEq, Repr

/-- The persistent store's transaction (10_state.md R48). -/
structure PsState where
  /-- `ps.state`. -/
  state : PsPhase
  /-- `ps.idx`. -/
  idx : Nat
deriving DecidableEq, Repr

/-- The sampler's filter state (10_state.md R49). -/
structure FiltState where
  /-- `filt.sum[0..3]`. -/
  sum : Vector Word 4
  /-- `filt.tbuf[0..TEMP_DEPTH-1]`. -/
  tbuf : List Half
  /-- `filt.tsum`. -/
  tsum : Word
  /-- `filt.tpos`. -/
  tpos : Nat
deriving DecidableEq, Repr

/-- Everything the spec gives the block (10_state.md), and four fields of the model's own: the configuration, the
events to come, the last responses and the count of draws. -/
structure State where
  /-- The parameters (00_scope.md R7); no step changes them. The model's own place for them: assumption log 4. -/
  cfg : Config
  /-- The events to come, as bytes; `step` takes the first event. The model's own: assumption log 1. -/
  inbox : List Byte
  /-- The slave's responses (30_encoding.md R93) to the last bus event or host operation. The model's own:
  assumption log 11. -/
  out : List Resp
  /-- How many values have been drawn for `unspecified` (00_scope.md R8). The model's own: assumption log 18. -/
  draws : Nat
  /-- `mem[0..4095]`, 10_state.md R11. -/
  mem : Memory
  /-- `nv[0..1023]`, R12. -/
  nv : Memory
  /-- `slot[0..31]`, R13 to R27. -/
  slots : Vector Byte 32
  /-- `time_commit`, R28. -/
  timeCommit : Bool
  /-- `alarm_commit`, R28. -/
  alarmCommit : Bool
  /-- `corr_commit`, R28. -/
  corrCommit : Bool
  /-- R29 to R34. -/
  bus : BusState
  /-- R35. -/
  sched : SchedState
  /-- `wdt_cnt`, R36. -/
  wdtCnt : Nat
  /-- `loop_pos`, R37. -/
  loopPos : Consumer
  /-- R38. -/
  dio : DioState
  /-- `long_press`, R38. -/
  longPress : Bool
  /-- R40, R41. -/
  rtc : RtcState
  /-- `alarm_pending`, R41. -/
  alarmPending : Bool
  /-- R42. -/
  ind : IndState
  /-- `run`, R44. -/
  run : RunState
  /-- `main_rail`, R45. -/
  mainRail : Bool
  /-- `aux_rail`, R45. -/
  auxRail : Bool
  /-- `bl_on`, R45. -/
  blOn : Bool
  /-- `crit_cnt`, R46. -/
  critCnt : Nat
  /-- `halted`, R47. -/
  halted : Bool
  /-- R48. -/
  ps : PsState
  /-- `meas[0..3]`, R49. -/
  meas : Vector Half 4
  /-- `temp`, R49. -/
  temp : Half
  /-- R49. -/
  filt : FiltState
deriving DecidableEq, Repr

/-- The faults of a step. There are none: no pointer, no data value, no access and no arithmetic faults
(60_exceptions.md R325), and the two trap-like events of R330 and R331 are next states. Safe: a step of the
block always goes on. -/
inductive Fault where
deriving DecidableEq, Repr

/-- The refusals of a step. No step refuses: every event has its effect, and bytes that encode no event are passed over
(assumption log 2). -/
inductive Refusal where
  /-- Raised by `exec` alone, for an instruction that has no meaning in the model yet. Safe: nothing can be
  proved of the instruction. -/
  | notModelled (mnemonic : String)
deriving DecidableEq, Repr

/-- The context in which the next wire event is read. -/
def State.ctx (s : State) : Ctx :=
  { cfg := s.cfg, mode := s.bus.mode, phase := s.bus.phase, dir := s.bus.dir }

/-- The slots after `POWER_ON` but for slot 3, which the Wake entry action publishes (70_reset_and_hazards.md R350). -/
def resetSlots (c : Config) : Vector Byte 32 :=
  #v[c.idValue, packVersion c.versionMajor c.versionMinor, 0, 0, 0, 0, 0, 0, 0, 0, 0, 0, 0, 0,
     c.blDefault, 0, 0, c.pressDefault, Config.nvIdle, 0, 0, 0, 0, 0, 0, 0, 0, 0, 0, 0, 0, 0]

/-- The block right after `POWER_ON` (70_reset_and_hazards.md R350, R353) under CFG0 (assumption log 4), with all
pins 0 (log 17), an `nv` of zeros (log 15), the pointer a draw (log 13) and no event to come (log 1). -/
def State.reset : State where
  cfg := Config.cfg0
  inbox := []
  out := []
  draws := 1
  mem := []
  nv := []
  slots := resetSlots Config.cfg0
  timeCommit := false
  alarmCommit := false
  corrCommit := false
  bus := { phase := .idle, ptr := Config.freePtr 0, inTransfer := false, dir := .w, addrHi := 0x00#8,
           ack := false, mode := .disabled, hgRun := false }
  sched := { sub := 0, ms := 0#32, dec := PerConsumer.all 0, flag := PerConsumer.all false }
  wdtCnt := 0
  loopPos := .ps
  dio := { btn := ⟨false, false⟩, chg0 := ⟨false, false⟩, chg1 := ⟨false, false⟩, card := false,
           btnLast := false, pressCnt := 0, shortLatched := false }
  longPress := false
  rtc := { count := 0#32, alarm := 0#32, corr := 0#32, corrCnt := 0#32, alarmEn := false, corrEn := false,
           wkAlarmPrev := false }
  alarmPending := false
  ind := { en := true, sel := .off, mode := .off, level := 0x00#8, cnt := 0 }
  run := .wake
  mainRail := false
  auxRail := true
  blOn := false
  critCnt := 0
  halted := false
  ps := { state := .idle, idx := 0 }
  meas := Vector.replicate 4 0#16
  temp := 0#16
  filt := { sum := Vector.replicate 4 0#32, tbuf := List.replicate 8 0#16, tsum := 0#32, tpos := 0 }

end Sys2Proof.Machine
end

