-- ==== Sys2Proof/Machine/Operands.lean ====
section
/-! DEFINITION. The operand forms: the byte store, the control slots, big-endian fields, and which location a
pointer value selects (spec 20_memory.md R60, R64, R80, 30_encoding.md R104, R105). -/

namespace Sys2Proof.Machine

/-! ## Byte stores -/

/-- What an unlisted address reads as: 0x00 (assumption log 15 and 16). -/
def Memory.unlisted : Byte := 0x00#8

/-- One byte of a store. -/
def Memory.read (m : Memory) (a : Nat) : Byte :=
  match m with
  | [] => Memory.unlisted
  | c :: m => if c.1 = a then c.2 else Memory.read m a

/-- The store with a new entry put before the first higher address. -/
def Memory.insert (m : Memory) (a : Nat) (b : Byte) : Memory :=
  match m with
  | [] => [(a, b)]
  | c :: m => if a < c.1 then (a, b) :: c :: m else c :: Memory.insert m a b

/-- The store with no entry at an address. -/
def Memory.drop (m : Memory) (a : Nat) : Memory := m.filter (fun c => c.1 != a)

/-- The store with one byte written; a byte equal to what an unlisted address reads as is not listed. -/
def Memory.write (m : Memory) (a : Nat) (b : Byte) : Memory :=
  if b = Memory.unlisted then Memory.drop m a else Memory.insert (Memory.drop m a) a b

/-- The entries below an address. -/
def Memory.below (m : Memory) (hi : Nat) : Memory := m.filter (fun c => decide (c.1 < hi))

/-- The entries from an address up. -/
def Memory.above (m : Memory) (lo : Nat) : Memory := m.filter (fun c => decide (lo ≤ c.1))

/-- `n` addresses from `a` up, each holding `b`. -/
def Memory.run (b : Byte) (a n : Nat) : Memory :=
  match n with
  | 0 => []
  | n + 1 => (a, b) :: Memory.run b (a + 1) n

/-- The store whose `n` bytes from address 0 are all `b`. -/
def Memory.fill (b : Byte) (n : Nat) : Memory :=
  if b = Memory.unlisted then [] else Memory.run b 0 n

/-- The store `dst` with `n` bytes from address `a` up copied from `src`, in increasing address order
(46_boundary_modules.md R301). -/
def Memory.copy (src : Memory) (a n : Nat) (dst : Memory) : Memory :=
  match n with
  | 0 => dst
  | n + 1 => Memory.copy src (a + 1) n (Memory.write dst a (Memory.read src a))

/-- Addresses at least `lo`, below `hi` and strictly rising, no byte equal to what an unlisted address reads as. -/
def Memory.wfFrom (lo hi : Nat) (m : Memory) : Bool :=
  match m with
  | [] => true
  | c :: m =>
    decide (lo ≤ c.1) && decide (c.1 < hi) && c.2 != Memory.unlisted && Memory.wfFrom (c.1 + 1) hi m

/-- The canonical form of a store of addresses below `hi`. -/
def Memory.wf (hi : Nat) (m : Memory) : Bool := Memory.wfFrom 0 hi m

/-! ## Control slots -/

/-- `slot[k]` (00_scope.md R8). -/
def State.slot (s : State) (k : Fin 32) : Byte := s.slots[k.val]

/-- `slot[k] <- b` (00_scope.md R8). -/
def State.setSlot (s : State) (k : Fin 32) (b : Byte) : State := { s with slots := s.slots.set k.val b }

/-- The slot that a pointer of the control region selects: `p[4:0]` (20_memory.md R60, R80). -/
def slotOf (p : Half) : Fin 32 := ⟨p.toNat % 32, Nat.mod_lt _ (by decide)⟩

/-- `BE32(k)` (00_scope.md R8; 30_encoding.md R104). -/
def State.be32 (s : State) (k : Fin 32) : Word :=
  join32 (s.slot k) (s.slot (k + 1)) (s.slot (k + 2)) (s.slot (k + 3))

/-- `slot[k..k+3] <- BE32(v)` (00_scope.md R8; 30_encoding.md R104). -/
def State.setBe32 (s : State) (k : Fin 32) (v : Word) : State :=
  (((s.setSlot k (byteOf32 v 0)).setSlot (k + 1) (byteOf32 v 1)).setSlot (k + 2) (byteOf32 v 2)).setSlot
    (k + 3) (byteOf32 v 3)

/-- `BE16(k)` (00_scope.md R8; 30_encoding.md R105). -/
def State.be16 (s : State) (k : Fin 32) : Half := join16 (s.slot k) (s.slot (k + 1))

/-- `slot[k..k+1] <- v`, high byte first (20_memory.md R61, R79). -/
def State.setBe16 (s : State) (k : Fin 32) (v : Half) : State :=
  (s.setSlot k (hiByte v)).setSlot (k + 1) (loByte v)

/-- The current 16-bit result behind a high-byte slot 4, 6, 8, 10 or 12, none for the other slots
(20_memory.md R61). -/
def State.resultOf (s : State) (k : Fin 32) : Option Half :=
  if k = 4 then some s.meas[0]
  else if k = 6 then some s.meas[1]
  else if k = 8 then some s.meas[2]
  else if k = 10 then some s.meas[3]
  else if k = 12 then some s.temp
  else none

/-- What the location a pointer selects holds, with no side effect: the byte of `mem` or the slot. It is the
model's view of one byte of the register space, for statements. -/
def State.peek (s : State) (p : Half) : Byte :=
  if p.toNat < Config.persistSize then Memory.read s.mem p.toNat else s.slot (slotOf p)

end Sys2Proof.Machine
end

