-- ==== Sys2Proof/Machine/Flags.lean ====
section
/-! DEFINITION. The bit fields of `STATUS`, `DIN` and `WK` on the state, and the predicates and outputs computed
from state (spec 30_encoding.md R99 to R101, 42_digital_io.md R208 to R210, 44_indicator.md R241, R242,
45_power_sequencer.md R261, R262). -/

namespace Sys2Proof.Machine

/-! ## STATUS -/

/-- The `crit` bit of `STATUS` (30_encoding.md R99). -/
def State.statusCrit (s : State) : Bool := (s.slot 2).getLsbD s.cfg.stCritBit

/-- The `short` bit of `STATUS`. -/
def State.statusShort (s : State) : Bool := (s.slot 2).getLsbD s.cfg.stShortBit

/-- The `reason` field of `STATUS`. -/
def State.statusReason (s : State) : BitVec 3 := getField3 (s.slot 2) s.cfg.stReasonLsb

/-- `STATUS` with its `crit` bit written (45_power_sequencer.md R277). -/
def State.setCrit (s : State) (b : Bool) : State := s.setSlot 2 (putBit (s.slot 2) s.cfg.stCritBit b)

/-- `STATUS` with its `short` bit written (42_digital_io.md R207, 20_memory.md R61). -/
def State.setShort (s : State) (b : Bool) : State := s.setSlot 2 (putBit (s.slot 2) s.cfg.stShortBit b)

/-- `STATUS` with its `reason` field written (45_power_sequencer.md R275). -/
def State.setReason (s : State) (r : BitVec 3) : State :=
  s.setSlot 2 (putField3 (s.slot 2) s.cfg.stReasonLsb r)

/-! ## DIN and the charge state -/

/-- `DinPack()` (42_digital_io.md R209). -/
def State.dinPack (s : State) : Byte :=
  packDin s.cfg s.dio.card s.dio.btn.deb s.dio.chg1.deb s.dio.chg0.deb

/-- `chg_state` (10_state.md R39, 42_digital_io.md R210). -/
def State.chgState (s : State) : ChgState := s.cfg.chgMap.get s.dio.chg1.deb s.dio.chg0.deb

/-- `held_short` (42_digital_io.md R208). -/
def State.heldShort (s : State) : Bool := s.dio.btn.deb && s.dio.shortLatched

/-! ## WK -/

/-- The `alarm` bit of `WK` (30_encoding.md R101). -/
def State.wkAlarm (s : State) : Bool := (s.slot 15).getLsbD s.cfg.wkAlarmBit

/-- The `chg_start` bit of `WK`. -/
def State.wkChgStart (s : State) : Bool := (s.slot 15).getLsbD s.cfg.wkChgStartBit

/-- The `chg_done` bit of `WK`. -/
def State.wkChgDone (s : State) : Bool := (s.slot 15).getLsbD s.cfg.wkChgDoneBit

/-! ## The sequencer's predicates (45_power_sequencer.md R261, R262) -/

/-- The measured battery voltage, `meas[VBAT_CH]` (R260). -/
def State.vbat (s : State) : Half := s.meas[s.cfg.vbatCh.val]

/-- `battery_ok` (R261). -/
def State.batteryOk (s : State) : Bool := decide (s.cfg.vbatOn ≤ s.vbat)

/-- `ext_pwr` (R261). -/
def State.extPwr (s : State) : Bool := s.chgState != .off

/-- `charging_now` (R261). -/
def State.chargingNow (s : State) : Bool := s.chgState == .charging

/-- `charge_done_wake` (R262). -/
def State.chargeDoneWake (s : State) : Bool := s.wkChgDone && s.chgState == .complete

/-- `charge_wake` (R262). -/
def State.chargeWake (s : State) : Bool := (s.wkChgStart && s.chgState == .charging) || s.chargeDoneWake

/-! ## Outputs (10_state.md R43) -/

/-- `pwm_bl` (44_indicator.md R241). -/
def State.pwmBl (s : State) : Byte := if s.blOn then s.slot 14 else 0x00#8

/-- `pwm_ind` (44_indicator.md R242). -/
def State.pwmInd (s : State) : Byte := if s.ind.en then s.ind.level else 0x00#8

/-- The bytes the slave sent in answer to the last bus event or host operation, in order (30_encoding.md R93). -/
def State.sent (s : State) : List Byte :=
  s.out.filterMap (fun r =>
    match r with
    | .tx b => some b
    | _ => none)

end Sys2Proof.Machine
end

