-- ==== Sys2Proof/Machine/Ops.lean ====
section
/-! DEFINITION. The named operations over the register space, and the two trap-like events.

Taking an exception: the block has two events that behave like traps (spec 60_exceptions.md R330, R331), the
protocol reset (`raiseProtocolReset`) and the watchdog reset (`raiseWatchdogReset`). Neither saves anything and
neither has a return operation (R332): the host retries, and the block starts up again. -/

namespace Sys2Proof.Machine

/-! ## The read and write primitives (20_memory.md R61 to R63) -/

/-- `RegRead(p)` (R61, R79): the byte, and the state after its side effects. -/
def regRead (p : Half) (s : State) : Byte × State :=
  if p.toNat < Config.persistSize then (Memory.read s.mem p.toNat, s)
  else if slotOf p = 2 then (s.slot 2, s.setShort false)
  else
    match s.resultOf (slotOf p) with
    | some w => (hiByte w, s.setBe16 (slotOf p) w)
    | none => (s.slot (slotOf p), s)

/-- The byte that a write to `NVCTL` stores (R62): a sentinel itself, for any other byte `NV_IDLE`. -/
def nvctlFilter (c : Config) (b : Byte) : Byte :=
  if b = c.nvCmdCommit ∨ b = c.nvCmdReload then b else Config.nvIdle

/-- A host write to a writable slot other than `NVCTL` (R62): the byte is stored, and the low byte of a 32-bit
field sets its commit flag (10_state.md R28). -/
def writeSlot (k : Fin 32) (b : Byte) (s : State) : State :=
  { s.setSlot k b with
    timeCommit := s.timeCommit || k == 22
    alarmCommit := s.alarmCommit || k == 26
    corrCommit := s.corrCommit || k == 30 }

/-- `RegWrite(p, b)` (R62, R69). -/
def regWrite (p : Half) (b : Byte) (s : State) : State :=
  if p.toNat < Config.persistSize then { s with mem := Memory.write s.mem p.toNat b }
  else if (slotOf p).val < Config.roBoundary then s
  else if slotOf p = 18 then s.setSlot 18 (nvctlFilter s.cfg b)
  else writeSlot (slotOf p) b s

/-- `bus.ptr <- p`. -/
def State.setPtr (s : State) (p : Half) : State := { s with bus := { s.bus with ptr := p } }

/-- The slave's responses of this step. -/
def State.respond (s : State) (r : List Resp) : State := { s with out := r }

/-- One byte fetched on behalf of the bus: `RegRead(bus.ptr)`, then the pointer advances (R63). -/
def fetchByte (s : State) : Byte × State :=
  ((regRead s.bus.ptr s).1, (regRead s.bus.ptr s).2.setPtr (s.bus.ptr + 1#16))

/-- One byte stored on behalf of the bus: `RegWrite(bus.ptr, b)`, then the pointer advances (R63). -/
def storeByte (b : Byte) (s : State) : State := (regWrite s.bus.ptr b s).setPtr (s.bus.ptr + 1#16)

/-- The pointer word `p` is loaded (30_encoding.md R97), and then no byte, one fetched byte or one stored byte is
transferred there (assumption log 7). -/
def accessAt (p : Half) (acc : Access) (s : State) : State :=
  match acc with
  | .point => (s.setPtr p).respond []
  | .read => (fetchByte (s.setPtr p)).2.respond [.tx (fetchByte (s.setPtr p)).1]
  | .write b => (storeByte b (s.setPtr p)).respond [.ack]

/-! ## Draws (00_scope.md R8) -/

/-- `bus.ptr <- unspecified(16)`: the next free value, which nothing constrains (assumption log 13). -/
def State.drawPtr (s : State) : State :=
  { s.setPtr (Config.freePtr s.draws) with draws := s.draws + 1 }

/-- A transaction that ends in phase AddrLo leaves the pointer unspecified (40_register_bus.md R143). -/
def dropHalfPointer (s : State) : State := if s.bus.phase = .addrLo then s.drawPtr else s

/-! ## The protocol reset -/

/-- The end of a transaction: phase Idle, `in_transfer` 0, the acknowledge line released, the pointer a draw if
only one of its bytes had come (40_register_bus.md R131, R139, R140, R143). -/
def closeTransaction (s : State) : State :=
  let s := dropHalfPointer s
  { s with bus := { s.bus with phase := .idle, inTransfer := false, ack := false } }

/-- `raise ProtocolReset`, class X1 (40_register_bus.md R140, 60_exceptions.md R320, R330). -/
def raiseProtocolReset (s : State) : State := closeTransaction s

/-! ## Initialisation and the watchdog reset -/

/-- A line initialised to the sampled level (42_digital_io.md R200). -/
def Line.init (v : Bool) : Line := { prev := v, deb := v }

/-- `DinPack()` published to slot 3 (42_digital_io.md R209). -/
def publishDin (s : State) : State := s.setSlot 3 s.dinPack

/-- `DioInit` (42_digital_io.md R200). -/
def dioInit (p : Pins) (s : State) : State :=
  publishDin { s with
    dio := { btn := Line.init p.btn, chg0 := Line.init p.chg0, chg1 := Line.init p.chg1, card := p.card,
             btnLast := p.btn, pressCnt := if p.btn then s.cfg.longPressTicks else 0, shortLatched := false }
    longPress := false }

/-- `IndInit` (44_indicator.md R240). -/
def indInit (s : State) : State :=
  { s with ind := { en := true, sel := .off, mode := .off, level := 0x00#8, cnt := 0 } }

/-- `SchedInit` (41_tick_scheduler.md R190). -/
def schedInit (s : State) : State :=
  { s with
    sched := { sub := 0, ms := 0#32, dec := PerConsumer.all 0, flag := PerConsumer.all false }
    loopPos := .ps
    wdtCnt := 0 }

/-- The Wake entry action (45_power_sequencer.md R263, 70_reset_and_hazards.md R353). -/
def wakeEntry (p : Pins) (s : State) : State :=
  { schedInit (indInit (dioInit p s)) with auxRail := true }

/-- The assignments of `POWER_ON` before the Wake entry action (70_reset_and_hazards.md R350). -/
def clearAll (s : State) : State :=
  { s with
    out := []
    draws := s.draws + 1
    mem := Memory.below s.nv Config.nvMirrorSize
    slots := resetSlots s.cfg
    timeCommit := false
    alarmCommit := false
    corrCommit := false
    bus := { phase := .idle, ptr := Config.freePtr s.draws, inTransfer := false, dir := .w, addrHi := 0x00#8,
             ack := false, mode := .disabled, hgRun := false }
    rtc := { count := 0#32, alarm := 0#32, corr := 0#32, corrCnt := 0#32, alarmEn := false, corrEn := false,
             wkAlarmPrev := false }
    alarmPending := false
    ps := { state := .idle, idx := 0 }
    meas := Vector.replicate 4 0#16
    temp := 0#16
    filt := { sum := Vector.replicate 4 0#32, tbuf := List.replicate s.cfg.tempDepth 0#16, tsum := 0#32,
              tpos := 0 }
    mainRail := false
    auxRail := false
    blOn := false
    critCnt := 0
    halted := false
    run := .wake }

/-- The power-on reset (70_reset_and_hazards.md R350): `nv` is not touched. -/
def powerOnReset (p : Pins) (s : State) : State := wakeEntry p (clearAll s)

/-- `raise WatchdogReset`, class X5 (41_tick_scheduler.md R189, 60_exceptions.md R324, R331): `POWER_ON` but for
the seconds counter, which is a draw (70_reset_and_hazards.md R351; assumption log 14). -/
def raiseWatchdogReset (p : Pins) (s : State) : State :=
  let s' := powerOnReset p s
  { s' with rtc := { s'.rtc with count := Config.freeCount s'.draws }, draws := s'.draws + 1 }

end Sys2Proof.Machine
end

