-- ==== Sys2Proof/Machine/Bus.lean ====
section
/-! DEFINITION. The register-bus slave (spec 40_register_bus.md R130 to R151): one operation for each event rule, the
service of a wire event in the slave's present mode, phase and direction, and the meanings of the bus-event rows
of the table. A row names the wire event AND the context in which its rule applies; executed in another context it
is that wire event, serviced by the rule that applies there (assumption log 5). -/

namespace Sys2Proof.Machine

/-- What each meaning answers. -/
abbrev Result := Host.Outcome State Fault Refusal

/-! ## The event rules -/

/-- `START(a, rw)` for another address (R131). -/
def busStartOther (s : State) : State := (closeTransaction s).respond [.nack]

/-- `START_W` (R132). -/
def busStartW (s : State) : State :=
  let s := dropHalfPointer s
  { s with bus := { s.bus with dir := .w, phase := .addrHi, inTransfer := true, ack := true }, out := [.ack] }

/-- `START_R` before its fetch (R133): the slave is addressed for reading. -/
def openRead (s : State) : State :=
  let s := dropHalfPointer s
  { s with bus := { s.bus with dir := .r, phase := .data, inTransfer := true, ack := true } }

/-- `START_R` (R133): acknowledge, fetch the first byte, send it. -/
def busStartR (s : State) : State :=
  (fetchByte (openRead s)).2.respond [.ack, .tx (fetchByte (openRead s)).1]

/-- `ADDR_HI` (R134). -/
def busAddrHi (b : Byte) (s : State) : State :=
  { s with bus := { s.bus with addrHi := b, phase := .addrLo, ack := true }, out := [.ack] }

/-- `ADDR_LO` (R135). -/
def busAddrLo (b : Byte) (s : State) : State :=
  { s with bus := { s.bus with ptr := join16 s.bus.addrHi b, phase := .data, ack := true }, out := [.ack] }

/-- `WR_DATA` (R136). -/
def busWrData (b : Byte) (s : State) : State :=
  let s := storeByte b s
  { s with bus := { s.bus with ack := true }, out := [.ack] }

/-- `RD_ACK` (R137). -/
def busRdAck (s : State) : State := (fetchByte s).2.respond [.tx (fetchByte s).1]

/-- `RD_NACK` (R138): `in_transfer` stays 1. -/
def busRdNack (s : State) : State :=
  { s with bus := { s.bus with phase := .idle, ack := false }, out := [] }

/-- `STOP` (R139). -/
def busStop (s : State) : State := (closeTransaction s).respond []

/-- `BUS_ERR` (R140): the protocol reset, nothing sent. -/
def busError (s : State) : State := (raiseProtocolReset s).respond []

/-- `WDATA` in a read transaction (R141): the protocol reset, `NACK`. -/
def busWdataInRead (s : State) : State := (raiseProtocolReset s).respond [.nack]

/-- `RACK` or `RNACK` where a write byte is expected (R141): the protocol reset. -/
def busAckInWrite (s : State) : State := (raiseProtocolReset s).respond []

/-- The response to an event that is not serviced (R142, R150): `NACK` to a start or a byte, nothing otherwise. -/
def unservicedResponse : WireEvent → List Resp
  | .start _ _ => [.nack]
  | .wdata _ => [.nack]
  | .rack => []
  | .rnack => []
  | .stop => []
  | .busErr => []

/-- An event that the slave does not service (R142, R150): no state changes. -/
def busIgnore (e : WireEvent) (s : State) : State := s.respond (unservicedResponse e)

/-! ## The service of a wire event (R130, R150, R151) -/

/-- `WDATA(b)` while Active. -/
def serviceWdata (b : Byte) (s : State) : State :=
  match s.bus.phase with
  | .idle => busIgnore (.wdata b) s
  | .addrHi => busAddrHi b s
  | .addrLo => busAddrLo b s
  | .data =>
    match s.bus.dir with
    | .w => busWrData b s
    | .r => busWdataInRead s

/-- `RACK` while Active. -/
def serviceRack (s : State) : State :=
  match s.bus.phase, s.bus.dir with
  | .idle, _ => busIgnore .rack s
  | .data, .r => busRdAck s
  | _, _ => busAckInWrite s

/-- `RNACK` while Active. -/
def serviceRnack (s : State) : State :=
  match s.bus.phase, s.bus.dir with
  | .idle, _ => busIgnore .rnack s
  | .data, .r => busRdNack s
  | _, _ => busAckInWrite s

/-- `START(a, rw)` while Active. -/
def serviceStart (a : BitVec 7) (rw : Dir) (s : State) : State :=
  if a = s.cfg.slaveAddr then
    match rw with
    | .w => busStartW s
    | .r => busStartR s
  else busStartOther s

/-- One wire event, serviced in the slave's present mode, phase and direction. -/
def service (e : WireEvent) (s : State) : State :=
  if s.bus.mode = .active then
    match e with
    | .start a rw => serviceStart a rw s
    | .wdata b => serviceWdata b s
    | .rack => serviceRack s
    | .rnack => serviceRnack s
    | .stop => busStop s
    | .busErr => busError s
  else busIgnore e s

/-- Wire events serviced one after the other with no other agent's step between; the responses of all of them. -/
def transact (es : List WireEvent) (s : State) : State :=
  match es with
  | [] => s.respond []
  | e :: es => (transact es (service e s)).respond ((service e s).out ++ (transact es (service e s)).out)

/-! ## The meanings of the bus-event rows -/

/-- `START_OTHER`: `START(a, rw)`, R131 where `a` is not `SLAVE_ADDR`. -/
def execStartOther (a : BitVec 7) (rw : Dir) (s : State) : Result := .next (service (.start a rw) s)

/-- `START_W`: `START(SLAVE_ADDR, 0)`, R132. -/
def execStartW (s : State) : Result := .next (service (.start s.cfg.slaveAddr .w) s)

/-- `START_R`: `START(SLAVE_ADDR, 1)`, R133. -/
def execStartR (s : State) : Result := .next (service (.start s.cfg.slaveAddr .r) s)

/-- `ADDR_HI`: `WDATA(b)`, R134 in phase AddrHi. -/
def execAddrHi (b : Byte) (s : State) : Result := .next (service (.wdata b) s)

/-- `ADDR_LO`: `WDATA(b)`, R135 in phase AddrLo. -/
def execAddrLo (b : Byte) (s : State) : Result := .next (service (.wdata b) s)

/-- `WR_DATA`: `WDATA(b)`, R136 in phase Data with direction W. -/
def execWrData (b : Byte) (s : State) : Result := .next (service (.wdata b) s)

/-- `RD_ACK`: `RACK`, R137 in phase Data with direction R. -/
def execRdAck (s : State) : Result := .next (service .rack s)

/-- `RD_NACK`: `RNACK`, R138 in phase Data with direction R. -/
def execRdNack (s : State) : Result := .next (service .rnack s)

/-- `STOP`, R139. -/
def execStop (s : State) : Result := .next (service .stop s)

/-- `BUS_ERR`, R140. -/
def execBusErr (s : State) : Result := .next (service .busErr s)

/-- `WDATA_IN_READ`: `WDATA(b)`, R141 in phase Data with direction R. -/
def execWdataInRead (b : Byte) (s : State) : Result := .next (service (.wdata b) s)

/-- `RACK_IN_WRITE`: `RACK` or `RNACK`, R141 in phase AddrHi, AddrLo, or Data with direction W. -/
def execRackInWrite (e : WireEvent) (s : State) : Result := .next (service e s)

/-- `NOT_ADDRESSED`: `WDATA`, `RACK` or `RNACK`, R142 in phase Idle. -/
def execNotAddressed (e : WireEvent) (s : State) : Result := .next (service e s)

/-- `BUS_INACTIVE`: any bus event, R150 in mode Suspended or Disabled. -/
def execBusInactive (e : WireEvent) (s : State) : Result := .next (service e s)

end Sys2Proof.Machine
end

