-- ==== Sys2Proof/Machine/HostOps.lean ====
section
/-! DEFINITION. The composite operations of the host (spec 30_encoding.md R110): each is the run of its expansion, with
no other agent's step between its events (assumption log 10). The result of a read is `State.sent`. -/

namespace Sys2Proof.Machine

/-- `S W hi lo`: a write transaction up to its pointer bytes (R94, R109). -/
def pointerEvents (c : Config) (a : Half) : List WireEvent :=
  [.start c.slaveAddr .w, .wdata (hiByte a), .wdata (loByte a)]

/-- `S W hi lo d0 … P` (R110). -/
def writeEvents (c : Config) (a : Half) (d : List Byte) : List WireEvent :=
  pointerEvents c a ++ d.map .wdata ++ [.stop]

/-- `S W hi lo S R`, then `A` for each byte after the first of `n`, then `N P` (R95, R110). -/
def readEvents (c : Config) (a : Half) (n : Nat) : List WireEvent :=
  pointerEvents c a ++ [.start c.slaveAddr .r] ++ List.replicate (n - 1) .rack ++ [.rnack, .stop]

/-- `write8(A, v)`. -/
def execWrite8 (a : Half) (v : Byte) (s : State) : Result := .next (transact (writeEvents s.cfg a [v]) s)

/-- `write16(A, v)`: high byte first. -/
def execWrite16 (a : Half) (v : Half) (s : State) : Result :=
  .next (transact (writeEvents s.cfg a (bytes16 v)) s)

/-- `write32(A, v)`: most significant byte first. -/
def execWrite32 (a : Half) (v : Word) (s : State) : Result :=
  .next (transact (writeEvents s.cfg a (bytes32 v)) s)

/-- `read8(A)`. -/
def execRead8 (a : Half) (s : State) : Result := .next (transact (readEvents s.cfg a 1) s)

/-- `read16(A)`. -/
def execRead16 (a : Half) (s : State) : Result := .next (transact (readEvents s.cfg a 2) s)

/-- `read32(A)`. -/
def execRead32 (a : Half) (s : State) : Result := .next (transact (readEvents s.cfg a 4) s)

/-- `nvwrite(A, d)`; bytes beyond 4095 go where the pointer leads (70_reset_and_hazards.md R374). -/
def execNvwrite (a : Half) (d : List Byte) (s : State) : Result := .next (transact (writeEvents s.cfg a d) s)

/-- `nvread(A, n)`. -/
def execNvread (a : Half) (n : Nat) (s : State) : Result := .next (transact (readEvents s.cfg a n) s)

/-- `setptr(A)`: `S W hi lo P`. -/
def execSetptr (a : Half) (s : State) : Result := .next (transact (writeEvents s.cfg a []) s)

end Sys2Proof.Machine
end

