-- ==== Sys2Proof/Machine/Pointer.lean ====
section
/-! DEFINITION. The pointer rows (spec 20_memory.md R60, 30_encoding.md R98, R112): the pointer word is loaded, and no
byte, one read byte or one written byte is transferred at the location it selects, with every side effect of
`RegRead` and `RegWrite` (assumption log 7). -/

namespace Sys2Proof.Machine

/-- `PTR_PERSIST` (20_memory.md R60, 10_state.md R11): the byte `mem[p]`, with no side effect. -/
def execPtrPersist (p : BitVec 12) (acc : Access) (s : State) : Result := .next (accessAt (persistPointer p) acc s)

/-- An access through a pointer that selects slot `k`, whatever its bits 15:5 (20_memory.md R80). -/
def accessSlot (k : Nat) (x : BitVec 11) (acc : Access) (s : State) : Result :=
  .next (accessAt (slotPointer x k) acc s)

/-- `SLOT_ID` (10_state.md R14): reads `ID_VALUE`; writes are dropped. -/
def execSlotId (x : BitVec 11) (acc : Access) (s : State) : Result := accessSlot 0 x acc s

/-- `SLOT_VERSION` (R15): reads the packed version; writes are dropped. -/
def execSlotVersion (x : BitVec 11) (acc : Access) (s : State) : Result := accessSlot 1 x acc s

/-- `SLOT_STATUS` (R16): a read reports and clears `short`; writes are dropped. -/
def execSlotStatus (x : BitVec 11) (acc : Access) (s : State) : Result := accessSlot 2 x acc s

/-- `SLOT_DIN` (R17): reads the snapshot; writes are dropped. -/
def execSlotDin (x : BitVec 11) (acc : Access) (s : State) : Result := accessSlot 3 x acc s

/-- `SLOT_MEAS0_H` (R18): a read latches the pair; writes are dropped. -/
def execSlotMeas0H (x : BitVec 11) (acc : Access) (s : State) : Result := accessSlot 4 x acc s

/-- `SLOT_MEAS0_L` (R18): reads the latched low byte; writes are dropped. -/
def execSlotMeas0L (x : BitVec 11) (acc : Access) (s : State) : Result := accessSlot 5 x acc s

/-- `SLOT_MEAS1_H` (R18): a read latches the pair; writes are dropped. -/
def execSlotMeas1H (x : BitVec 11) (acc : Access) (s : State) : Result := accessSlot 6 x acc s

/-- `SLOT_MEAS1_L` (R18): reads the latched low byte; writes are dropped. -/
def execSlotMeas1L (x : BitVec 11) (acc : Access) (s : State) : Result := accessSlot 7 x acc s

/-- `SLOT_MEAS2_H` (R18): a read latches the pair; writes are dropped. -/
def execSlotMeas2H (x : BitVec 11) (acc : Access) (s : State) : Result := accessSlot 8 x acc s

/-- `SLOT_MEAS2_L` (R18): reads the latched low byte; writes are dropped. -/
def execSlotMeas2L (x : BitVec 11) (acc : Access) (s : State) : Result := accessSlot 9 x acc s

/-- `SLOT_MEAS3_H` (R18): a read latches the pair; writes are dropped. -/
def execSlotMeas3H (x : BitVec 11) (acc : Access) (s : State) : Result := accessSlot 10 x acc s

/-- `SLOT_MEAS3_L` (R18): reads the latched low byte; writes are dropped. -/
def execSlotMeas3L (x : BitVec 11) (acc : Access) (s : State) : Result := accessSlot 11 x acc s

/-- `SLOT_TEMP_H` (R18): a read latches the pair; writes are dropped. -/
def execSlotTempH (x : BitVec 11) (acc : Access) (s : State) : Result := accessSlot 12 x acc s

/-- `SLOT_TEMP_L` (R18): reads the latched low byte; writes are dropped. -/
def execSlotTempL (x : BitVec 11) (acc : Access) (s : State) : Result := accessSlot 13 x acc s

/-- `SLOT_BL` (R19). -/
def execSlotBl (x : BitVec 11) (acc : Access) (s : State) : Result := accessSlot 14 x acc s

/-- `SLOT_WK` (R20). -/
def execSlotWk (x : BitVec 11) (acc : Access) (s : State) : Result := accessSlot 15 x acc s

/-- `SLOT_SHDN` (R21). -/
def execSlotShdn (x : BitVec 11) (acc : Access) (s : State) : Result := accessSlot 16 x acc s

/-- `SLOT_PRESS` (R22). -/
def execSlotPress (x : BitVec 11) (acc : Access) (s : State) : Result := accessSlot 17 x acc s

/-- `SLOT_NVCTL` (R23): a write stores a sentinel or `NV_IDLE`. -/
def execSlotNvctl (x : BitVec 11) (acc : Access) (s : State) : Result := accessSlot 18 x acc s

/-- `SLOT_TIME_3` (R24). -/
def execSlotTime3 (x : BitVec 11) (acc : Access) (s : State) : Result := accessSlot 19 x acc s

/-- `SLOT_TIME_2` (R24). -/
def execSlotTime2 (x : BitVec 11) (acc : Access) (s : State) : Result := accessSlot 20 x acc s

/-- `SLOT_TIME_1` (R24). -/
def execSlotTime1 (x : BitVec 11) (acc : Access) (s : State) : Result := accessSlot 21 x acc s

/-- `SLOT_TIME_0` (R24): a write sets `time_commit`. -/
def execSlotTime0 (x : BitVec 11) (acc : Access) (s : State) : Result := accessSlot 22 x acc s

/-- `SLOT_ALARM_3` (R25). -/
def execSlotAlarm3 (x : BitVec 11) (acc : Access) (s : State) : Result := accessSlot 23 x acc s

/-- `SLOT_ALARM_2` (R25). -/
def execSlotAlarm2 (x : BitVec 11) (acc : Access) (s : State) : Result := accessSlot 24 x acc s

/-- `SLOT_ALARM_1` (R25). -/
def execSlotAlarm1 (x : BitVec 11) (acc : Access) (s : State) : Result := accessSlot 25 x acc s

/-- `SLOT_ALARM_0` (R25): a write sets `alarm_commit`. -/
def execSlotAlarm0 (x : BitVec 11) (acc : Access) (s : State) : Result := accessSlot 26 x acc s

/-- `SLOT_CORR_3` (R26). -/
def execSlotCorr3 (x : BitVec 11) (acc : Access) (s : State) : Result := accessSlot 27 x acc s

/-- `SLOT_CORR_2` (R26). -/
def execSlotCorr2 (x : BitVec 11) (acc : Access) (s : State) : Result := accessSlot 28 x acc s

/-- `SLOT_CORR_1` (R26). -/
def execSlotCorr1 (x : BitVec 11) (acc : Access) (s : State) : Result := accessSlot 29 x acc s

/-- `SLOT_CORR_0` (R26): a write sets `corr_commit`. -/
def execSlotCorr0 (x : BitVec 11) (acc : Access) (s : State) : Result := accessSlot 30 x acc s

/-- `SLOT_SLOT31` (R27): storage only. -/
def execSlotSlot31 (x : BitVec 11) (acc : Access) (s : State) : Result := accessSlot 31 x acc s

end Sys2Proof.Machine
end

