-- ==== Sys2Proof/Machine/Boundary.lean ====
section
/-! DEFINITION. The boundary collaborators: the persistent store's evaluation and the sampler's result path (spec
46_boundary_modules.md R300 to R311). -/

namespace Sys2Proof.Machine

/-- How many bytes the next batch of a write-back copies (R301). -/
def State.batch (s : State) : Nat := min s.cfg.nvBatch (Config.nvMirrorSize - s.ps.idx)

/-- One batch of a write-back (R301); the batch that reaches the end of the region ends the transaction. -/
def psWriteBack (s : State) : State :=
  let idx := s.ps.idx + s.batch
  let s' := { s with nv := Memory.copy s.mem s.ps.idx s.batch s.nv }
  if idx = Config.nvMirrorSize then
    let s'' := { s' with ps := { state := .idle, idx := idx } }
    if s.slot 18 = Config.nvBusy then s''.setSlot 18 Config.nvIdle else s''
  else { s' with ps := { s.ps with idx := idx } }

/-- A commit begins (R302): storage erased, the write-back scheduled. -/
def psCommit (s : State) : State :=
  { s with
    nv := Memory.fill s.cfg.nvErased Config.nvMirrorSize
    ps := { state := .writing, idx := 0 } }.setSlot 18 Config.nvBusy

/-- A reload (R303): bytes 0..1023 of `mem` from `nv`, the others as they are. -/
def psReload (s : State) : State :=
  { s with
    mem := Memory.below s.nv Config.nvMirrorSize ++ Memory.above s.mem Config.nvMirrorSize
    ps := { s.ps with state := .idle } }.setSlot 18 Config.nvIdle

/-- `EVAL_PS` (R300). -/
def evalPs (s : State) : State :=
  if s.ps.state = .writing then psWriteBack s
  else if s.slot 18 = s.cfg.nvCmdCommit then psCommit s
  else if s.slot 18 = s.cfg.nvCmdReload then psReload s
  else s

/-- `CAL(ch, x)` (R310): the lookup in the configuration's table; a pair that is not listed is published as it is,
truncated to 16 bits (assumption log 19). -/
def calibrate (c : Config) (ch : Fin 5) (x : Word) : Half :=
  match c.calTable.find? (fun e => e.channel == ch && e.input == x) with
  | some e => e.result
  | none => x.setWidth 16

/-- The smoothing accumulator after a sample (R309): `sum -= sum>>K; sum += sample`. -/
def emaSum (k : Nat) (sum : Word) (v : Half) : Word := sum - (sum >>> k) + v.zeroExtend 32

/-- A sample of an analog channel (R308, R309, R310). -/
def sampleAnalog (j : Fin 4) (v : Half) (s : State) : State :=
  let k := s.cfg.emaK[j.val]
  let sum := emaSum k s.filt.sum[j.val] v
  { s with
    filt := { s.filt with sum := s.filt.sum.set j.val sum }
    meas := s.meas.set j.val (calibrate s.cfg j.castSucc (sum >>> k)) }

/-- The temperature's running sum after a sample (R311): the oldest entry out, the new one in. -/
def tempSum (f : FiltState) (v : Half) : Word :=
  f.tsum - (f.tbuf.getD f.tpos 0#16).zeroExtend 32 + v.zeroExtend 32

/-- The temperature's average, rounded to nearest, half up (R311). -/
def tempAverage (depth : Nat) (tsum : Word) : Word := BitVec.ofNat 32 ((tsum.toNat + depth / 2) / depth)

/-- A sample of the temperature sensor (R308, R310, R311). -/
def sampleTemp (v : Half) (s : State) : State :=
  let tsum := tempSum s.filt v
  { s with
    filt := { s.filt with
      tsum := tsum
      tbuf := s.filt.tbuf.set s.filt.tpos v
      tpos := (s.filt.tpos + 1) % s.cfg.tempDepth }
    temp := calibrate s.cfg 4 (tempAverage s.cfg.tempDepth tsum) }

/-- `SAMPLE(ch, v)` (R308): at any time, also while halted. -/
def sampleResult (ch : Channel) (v : Half) (s : State) : State :=
  match ch with
  | .analog j => sampleAnalog j v s
  | .temperature => sampleTemp v s

/-- `EVAL_PS` (R300). -/
def execEvalPs (s : State) : Result := .next (evalPs s)

/-- `SAMPLE` (R308). -/
def execSample (ch : Channel) (v : Half) (s : State) : Result := .next (sampleResult ch v s)

end Sys2Proof.Machine
end

