-- ==== Sys2Proof/Machine/Dio.lean ====
section
/-! DEFINITION. The digital I/O monitor's evaluation (spec 42_digital_io.md R201 to R209). -/

namespace Sys2Proof.Machine

/-- Two-sample debounce of one line (R202). -/
def Line.sample (l : Line) (v : Bool) : Line :=
  { prev := v, deb := if v = l.prev then v else l.deb }

/-- The lines sampled and debounced, the card line taken raw (R202, R203). -/
def dioSample (p : Pins) (s : State) : State :=
  { s with dio := { s.dio with
      btn := s.dio.btn.sample p.btn, chg0 := s.dio.chg0.sample p.chg0, chg1 := s.dio.chg1.sample p.chg1,
      card := p.card } }

/-- Edge detection and press timing on the accepted button level (R204, R205, R206): a down event reloads the
counter, a held button counts it down, and the count's end raises the long-press flag. -/
def dioPress (s : State) : State :=
  let deb := s.dio.btn.deb
  if !s.dio.btnLast && deb then
    { s with dio := { s.dio with btnLast := deb, pressCnt := s.cfg.longPressTicks, shortLatched := false } }
  else if deb && decide (0 < s.dio.pressCnt) then
    { s with
      dio := { s.dio with btnLast := deb, pressCnt := s.dio.pressCnt - 1 }
      longPress := s.longPress || s.dio.pressCnt - 1 == 0 }
  else { s with dio := { s.dio with btnLast := deb } }

/-- How long the button has been down, in evaluations (R205). -/
def State.elapsed (s : State) : Nat := s.cfg.longPressTicks - s.dio.pressCnt

/-- The short-press threshold (R207): `STATUS.short` is set once a press. -/
def dioShort (s : State) : State :=
  if s.dio.btn.deb && !s.dio.shortLatched && decide ((s.slot 17).toNat ≤ s.elapsed) then
    { s with dio := { s.dio with shortLatched := true } }.setShort true
  else s

/-- `EVAL_DIO` (R201). -/
def evalDio (p : Pins) (s : State) : State := publishDin (dioShort (dioPress (dioSample p s)))

/-- `EVAL_DIO` (R201). -/
def execEvalDio (p : Pins) (s : State) : Result := .next (evalDio p s)

end Sys2Proof.Machine
end

