-- ==== Sys2Proof/Machine/Ind.lean ====
section
/-! DEFINITION. The indicator's evaluation (spec 44_indicator.md R243 to R251). -/

namespace Sys2Proof.Machine

/-- The start of the animation for a charge state (R244). -/
def indSelect (c : Config) (cs : ChgState) (i : IndState) : IndState :=
  match cs with
  | .off => { i with sel := cs, mode := .off, level := 0x00#8 }
  | .charging => { i with sel := cs, mode := .fadeUp, level := c.indMin }
  | .complete => { i with sel := cs, mode := .solid, level := c.indMax }
  | .fault => { i with sel := cs, mode := .blinkOn, level := c.indMax, cnt := c.blinkHalf }

/-- `min(level + IND_STEP, IND_MAX)` on integers (R247). -/
def fadeUpLevel (c : Config) (v : Byte) : Byte := BitVec.ofNat 8 (min (v.toNat + c.indStep) c.indMax.toNat)

/-- `max(level - IND_STEP, IND_MIN)` on integers, with no wrap (R248). -/
def fadeDownLevel (c : Config) (v : Byte) : Byte := BitVec.ofNat 8 (max (v.toNat - c.indStep) c.indMin.toNat)

/-- One step of the animation (R245 to R250). -/
def indStepOnce (c : Config) (i : IndState) : IndState :=
  match i.mode with
  | .off => i
  | .solid => i
  | .fadeUp =>
    { i with
      level := fadeUpLevel c i.level
      mode := if fadeUpLevel c i.level = c.indMax then .fadeDown else .fadeUp }
  | .fadeDown =>
    { i with
      level := fadeDownLevel c i.level
      mode := if fadeDownLevel c i.level = c.indMin then .fadeUp else .fadeDown }
  | .blinkOn =>
    if i.cnt - 1 = 0 then { i with mode := .blinkOff, level := c.indMin, cnt := c.blinkHalf }
    else { i with cnt := i.cnt - 1 }
  | .blinkOff =>
    if i.cnt - 1 = 0 then { i with mode := .blinkOn, level := c.indMax, cnt := c.blinkHalf }
    else { i with cnt := i.cnt - 1 }

/-- `EVAL_IND` (R243, R251). -/
def evalInd (s : State) : State :=
  if !s.ind.en then s
  else if s.chgState ≠ s.ind.sel then { s with ind := indSelect s.cfg s.chgState s.ind }
  else { s with ind := indStepOnce s.cfg s.ind }

/-- `EVAL_IND` (R243). -/
def execEvalInd (s : State) : Result := .next (evalInd s)

end Sys2Proof.Machine
end

