-- ==== Sys2Proof/Machine/Rtc.lean ====
section
/-! DEFINITION. The real-time clock: the one-second event and the clock evaluation (spec 43_rtc.md R220 to R230). -/

namespace Sys2Proof.Machine

/-- The correction counter one nearer to zero (R222): down for a positive value, up for a negative one. -/
def towardZero (v : Word) : Word :=
  if BitVec.slt 0#32 v then v - 1#32 else if BitVec.slt v 0#32 then v + 1#32 else v

/-- The direction of a nudge (R222): whether the configured correction adds a second. -/
def correctionAdds (c : Config) (corr : Word) : Bool := BitVec.slt 0#32 corr == c.corrPosAdds

/-- Drift correction at one second (R222): the counter moves toward zero; at zero the seconds counter is nudged
and the correction counter reloaded. -/
def rtcCorrect (c : Config) (r : RtcState) : RtcState :=
  if r.corrEn then
    let cnt := towardZero r.corrCnt
    if cnt = 0#32 then
      { r with
        count := if correctionAdds c r.corr then r.count + 1#32 else r.count - 1#32
        corrCnt := r.corr }
    else { r with corrCnt := cnt }
  else r

/-- The seconds counter at one second, before the comparison (R221, R222). -/
def rtcAdvance (c : Config) (r : RtcState) : RtcState := rtcCorrect c { r with count := r.count + 1#32 }

/-- The alarm comparator (R223): equality, one-shot. -/
def rtcAlarm (s : State) : State :=
  if s.rtc.alarmEn && s.rtc.count == s.rtc.alarm then
    { s with alarmPending := true, rtc := { s.rtc with alarmEn := false } }
  else s

/-- `SECOND` (R220, R224): enabled in every run state and while halted. -/
def oneSecond (s : State) : State := rtcAlarm { s with rtc := rtcAdvance s.cfg s.rtc }

/-- Time commit (R226). -/
def commitTime (s : State) : State :=
  if s.timeCommit then { s with rtc := { s.rtc with count := s.be32 19 }, timeCommit := false } else s

/-- Alarm commit (R227). -/
def commitAlarm (s : State) : State :=
  if s.alarmCommit then { s with rtc := { s.rtc with alarm := s.be32 23 }, alarmCommit := false } else s

/-- Correction commit (R228). -/
def commitCorr (s : State) : State :=
  if s.corrCommit then
    { s with
      rtc := { s.rtc with corr := s.be32 27, corrCnt := s.be32 27, corrEn := s.be32 27 != 0#32 }
      corrCommit := false }
  else s

/-- Arm and disarm on the transitions of the `alarm` bit of `WK` (R229). -/
def armAlarm (s : State) : State :=
  { s with rtc := { s.rtc with
      alarmEn :=
        if s.wkAlarm && !s.rtc.wkAlarmPrev then true
        else if !s.wkAlarm && s.rtc.wkAlarmPrev then false
        else s.rtc.alarmEn
      wkAlarmPrev := s.wkAlarm } }

/-- Republish the seconds counter into the `TIME` slots (R230). -/
def publishTime (s : State) : State := s.setBe32 19 s.rtc.count

/-- `EVAL_RTC` where it is not held (R225). -/
def evalRtc (s : State) : State := publishTime (armAlarm (commitCorr (commitAlarm (commitTime s))))

/-- `EVAL_RTC` (R225): held while a transaction is in progress (20_memory.md R71); a held evaluation changes
nothing (assumption log 3). -/
def execEvalRtc (s : State) : Result := .next (if s.bus.inTransfer then s else evalRtc s)

/-- `SECOND` (R220). -/
def execSecond (s : State) : Result := .next (oneSecond s)

end Sys2Proof.Machine
end

