-- ==== Sys2Proof/Machine/Lifecycle.lean ====
section
/-! DEFINITION. The hang guard (spec 40_register_bus.md R144) and the three lifecycle operations of the bus (R145 to
R147). The sequencer's entry actions run the lifecycle operations inside its step; a row that stands alone is the
operation by itself (assumption log 6). -/

namespace Sys2Proof.Machine

/-- `HANGGUARD` (R144): enabled while `hg_run` and not halted (where it is not enabled nothing happens, assumption
log 3); it releases the acknowledge line when no transaction is in progress. -/
def hangGuard (s : State) : State :=
  if s.bus.hgRun && !s.halted && !s.bus.inTransfer then { s with bus := { s.bus with ack := false } } else s

/-- The slave taken off the link in mode `m`: the hang guard stopped, any partial transaction discarded. -/
def detachBus (m : BusMode) (s : State) : State :=
  let s := dropHalfPointer s
  { s with bus := { s.bus with mode := m, hgRun := false, ack := false, phase := .idle, inTransfer := false } }

/-- `SUSPEND` (R145). -/
def busSuspend (s : State) : State := detachBus .suspended s

/-- `RESUME` (R146): the pointer is kept. -/
def busResume (s : State) : State :=
  { s with bus := { s.bus with phase := .idle, inTransfer := false, ack := false, hgRun := true, mode := .active } }

/-- `SHUTDOWN` (R147). -/
def busShutdown (s : State) : State := detachBus .disabled s

/-- `HANGGUARD`. -/
def execHangguard (s : State) : Result := .next (hangGuard s)

/-- `SUSPEND`. -/
def execSuspend (s : State) : Result := .next (busSuspend s)

/-- `RESUME`. -/
def execResume (s : State) : Result := .next (busResume s)

/-- `SHUTDOWN`. -/
def execShutdown (s : State) : Result := .next (busShutdown s)

end Sys2Proof.Machine
end

