-- ==== Sys2Proof/Machine/Seq.lean ====
section
/-! DEFINITION. The power-rail sequencer (spec 45_power_sequencer.md R263 to R279): the entry actions, the evaluation
in each run state, and the critical-battery timer. -/

namespace Sys2Proof.Machine

/-! ## Transitions: `run <- T`, then the entry action of T (R279) -/

/-- To Charge (R264). -/
def goCharge (s : State) : State :=
  busSuspend { s with run := .charge, mainRail := false, blOn := false }

/-- To Wait (R265). -/
def goWait (s : State) : State := { s with run := .wait, mainRail := true, blOn := true }

/-- To Power with a power-on reason (R266, R275). -/
def goPower (reason : BitVec 3) (s : State) : State :=
  (busResume { s with run := .power, mainRail := true, blOn := true, critCnt := 0 }).setReason reason

/-- To PowerOff (R267): the auxiliary rail and the bus are not touched. -/
def goPowerOff (s : State) : State := { s with run := .powerOff, mainRail := false, blOn := false }

/-- To Sleep (R268). -/
def goSleep (s : State) : State :=
  let s := busShutdown { s with run := .sleep }
  { s with mainRail := false, auxRail := false, blOn := false, ind := { s.ind with en := false },
           alarmPending := false }

/-- To Charge if still externally powered, else to Sleep (R272, R276). -/
def goChargeOrSleep (s : State) : State := if s.extPwr then goCharge s else goSleep s

/-! ## The evaluation in each state -/

/-- State Wake (R271, R281). -/
def runWake (s : State) : State :=
  if (s.alarmPending || s.chargeWake) && s.batteryOk then
    goPower (if s.alarmPending then s.cfg.reasonAlarm else s.cfg.reasonCharge) { s with alarmPending := false }
  else if s.extPwr then goCharge s
  else if s.heldShort && s.batteryOk then goWait s
  else if !s.batteryOk || !s.dio.btn.deb then goSleep s
  else s

/-- The reason of an entry to Power from Charge (R273, R275). -/
def chargeReason (s : State) : BitVec 3 :=
  if s.alarmPending then s.cfg.reasonAlarm
  else if s.chargeDoneWake then s.cfg.reasonCharge
  else s.cfg.reasonButton

/-- State Charge (R273, R281). -/
def runCharge (s : State) : State :=
  if s.batteryOk && (s.alarmPending || s.chargeDoneWake || s.heldShort) then
    goPower (chargeReason s) { s with alarmPending := false }
  else if s.chgState == .off || (!s.chargingNow && !s.batteryOk) then goSleep s
  else s

/-- State Wait (R274). -/
def runWait (s : State) : State := if s.dio.btn.deb then s else goPower s.cfg.reasonButton s

/-- The critical-battery count after an evaluation below the threshold (R277). -/
def State.critNext (s : State) : Nat :=
  if s.critCnt < s.cfg.critTimeout + s.cfg.critGrace then s.critCnt + 1 else s.critCnt

/-- `CritUpdate()` (R277): the state after it. -/
def critUpdate (s : State) : State :=
  if s.vbat < s.cfg.vbatCrit then
    let s' := { s with critCnt := s.critNext }
    if s.cfg.critTimeout ≤ s.critNext then s'.setCrit true else s'
  else { s with critCnt := 0 }.setCrit false

/-- `CritUpdate()` (R277): whether it forces the exit from Power. -/
def critExit (s : State) : Bool :=
  decide (s.vbat < s.cfg.vbatCrit) && decide (s.cfg.critTimeout + s.cfg.critGrace ≤ s.critNext)

/-- The shutdown trigger consumed (R272): slot 16 cleared where it holds the sentinel. -/
def consumeShutdown (s : State) : State := if s.slot 16 = s.cfg.shdnSentinel then s.setSlot 16 0x00#8 else s

/-- State Power (R272); `lp` is the long-press flag of this evaluation. -/
def runPower (lp : Bool) (s : State) : State :=
  if lp then goPowerOff s
  else
    let s' := consumeShutdown (critUpdate s)
    if critExit s || s.slot 16 == s.cfg.shdnSentinel then goChargeOrSleep s' else s'

/-- State PowerOff (R276). -/
def runPowerOff (s : State) : State := if s.dio.btn.deb then s else goChargeOrSleep s

/-- `EVAL_RUN` (R269): the long-press flag is read and cleared in every state (R270), at most one transition. -/
def evalRun (s : State) : State :=
  let lp := s.longPress
  let s := { s with longPress := false }
  match s.run with
  | .wake => runWake s
  | .charge => runCharge s
  | .wait => runWait s
  | .power => runPower lp s
  | .powerOff => runPowerOff s
  | .sleep => s

/-- `EVAL_RUN` (R269). -/
def execEvalRun (s : State) : Result := .next (evalRun s)

end Sys2Proof.Machine
end

