-- ==== Sys2Proof/Machine/Sched.lean ====
section
/-! DEFINITION. The tick scheduler, the super-loop and the watchdog (spec 41_tick_scheduler.md R180 to R192), and the
two events of the upstream logic (70_reset_and_hazards.md R350, R352, 45_power_sequencer.md R283). An event that
is not enabled, or a held one, changes nothing (assumption log 3). -/

namespace Sys2Proof.Machine

/-! ## The tick -/

/-- The decimator of one consumer at a tick (R183): clocked where the sub-tick is its phase, the flag raised where
its down-counter is 0. -/
def clockConsumer (c : Config) (i : Consumer) (sc : SchedState) : SchedState :=
  if sc.sub = c.phase.get i then
    if sc.dec.get i = 0 then
      { sc with flag := sc.flag.set i true, dec := sc.dec.set i (c.period.get i - 1) }
    else { sc with dec := sc.dec.set i (sc.dec.get i - 1) }
  else sc

/-- The sub-tick and the millisecond counter at a tick (R181, R182). -/
def advanceSub (c : Config) (sc : SchedState) : SchedState :=
  let sub := (sc.sub + 1) % c.ticksPerMs
  { sc with sub := sub, ms := if sub = 0 then sc.ms + 1#32 else sc.ms }

/-- The scheduler after a tick (R180). -/
def schedTick (c : Config) (sc : SchedState) : SchedState :=
  clockConsumer c .run (clockConsumer c .ind (clockConsumer c .dio (clockConsumer c .rtc
    (clockConsumer c .ps (advanceSub c sc)))))

/-- `TICK` (R180): enabled while not halted. The conversion it starts is no state (46_boundary_modules.md R307;
assumption log 23). -/
def oneTick (s : State) : State :=
  if s.halted then s
  else { s with sched := schedTick s.cfg s.sched, wdtCnt := min (s.wdtCnt + 1) s.cfg.wdtTicks }

/-! ## The super-loop -/

/-- The evaluation of a consumer (R187). -/
def evalConsumer (i : Consumer) (p : Pins) (s : State) : State :=
  match i with
  | .ps => evalPs s
  | .rtc => evalRtc s
  | .dio => evalDio p s
  | .ind => evalInd s
  | .run => evalRun s

/-- The `LOOPSTEP` is held (R192): its consumer is `RTC`, whose flag is set, and a transaction is in progress. -/
def State.loopHeld (s : State) : Bool := s.loopPos == .rtc && s.sched.flag.rtc && s.bus.inTransfer

/-- The watchdog re-armed at the start of a pass (R186, R188). -/
def rearmWatchdog (s : State) : State := if s.loopPos = .ps then { s with wdtCnt := 0 } else s

/-- The polled flag cleared and its module evaluated, where the flag is set (R186). -/
def pollFlag (p : Pins) (s : State) : State :=
  if s.sched.flag.get s.loopPos then
    evalConsumer s.loopPos p { s with sched := { s.sched with flag := s.sched.flag.set s.loopPos false } }
  else s

/-- The loop moved on; it exits where the run state is Sleep (R186, R191). -/
def advanceLoop (i : Consumer) (s : State) : State :=
  { s with loopPos := i.next, halted := s.halted || s.run == .sleep }

/-- `LOOPSTEP` (R186): enabled while not halted and not held. -/
def loopStep (p : Pins) (s : State) : State :=
  if s.halted || s.loopHeld then s else advanceLoop s.loopPos (pollFlag p (rearmWatchdog s))

/-! ## Resets and wake-up -/

/-- `WDT_EXPIRE` (R189): enabled while not halted and `wdt_cnt` is `WDT_TICKS`. -/
def watchdogExpire (p : Pins) (s : State) : State :=
  if !s.halted && s.wdtCnt == s.cfg.wdtTicks then raiseWatchdogReset p s else s

/-- `WAKEUP` (45_power_sequencer.md R283, 70_reset_and_hazards.md R352): enabled while halted. -/
def wakeUp (p : Pins) (s : State) : State :=
  if s.halted then wakeEntry p { s with halted := false, run := .wake } else s

/-- `TICK` (R180). -/
def execTick (s : State) : Result := .next (oneTick s)

/-- `LOOPSTEP` (R186). -/
def execLoopStep (p : Pins) (s : State) : Result := .next (loopStep p s)

/-- `WDT_EXPIRE` (R189): the watchdog reset is taken. -/
def execWdtExpire (p : Pins) (s : State) : Result := .next (watchdogExpire p s)

/-- `POWER_ON` (70_reset_and_hazards.md R350): enabled at any time. -/
def execPowerOn (p : Pins) (s : State) : Result := .next (powerOnReset p s)

/-- `WAKEUP` (45_power_sequencer.md R283). -/
def execWakeup (p : Pins) (s : State) : Result := .next (wakeUp p s)

end Sys2Proof.Machine
end

