-- ==== Sys2Proof/Machine/Trigger.lean ====
section
/-! DEFINITION. The trigger bytes (spec 30_encoding.md R103) and the field layouts (R99 to R102) as operations: a
trigger byte is written to its slot at the slot's canonical address (assumption log 8); a layout row is the write of
its fields to its slot by the slot's owner, or by the host where the block never writes it (assumption log 9). -/

namespace Sys2Proof.Machine

/-- The canonical address of slot `k` (20_memory.md R80). -/
def canonical (k : Nat) : Half := BitVec.ofNat 16 (4096 + k)

/-- `SHDN_REQUEST` (10_state.md R21): `SHDN_SENTINEL` written to slot 16. -/
def execShdnRequest (s : State) : Result := .next (accessAt (canonical 16) (.write s.cfg.shdnSentinel) s)

/-- `NV_COMMIT` (46_boundary_modules.md R302): `NV_CMD_COMMIT` written to slot 18. -/
def execNvCommit (s : State) : Result := .next (accessAt (canonical 18) (.write s.cfg.nvCmdCommit) s)

/-- `NV_RELOAD` (46_boundary_modules.md R303): `NV_CMD_RELOAD` written to slot 18. -/
def execNvReload (s : State) : Result := .next (accessAt (canonical 18) (.write s.cfg.nvCmdReload) s)

/-- `NV_OTHER` (20_memory.md R62): a byte that is neither sentinel written to slot 18 stores `NV_IDLE`. -/
def execNvOther (v : Byte) (s : State) : Result := .next (accessAt (canonical 18) (.write v) s)

/-- `STATUS_FIELDS` (30_encoding.md R99): the block assigns the three fields of slot 2, the other bits read 0. -/
def execStatusFields (crit short : Bool) (reason : BitVec 3) (s : State) : Result :=
  .next (s.setSlot 2 (packStatus s.cfg crit short reason))

/-- `DIN_FIELDS` (30_encoding.md R100): the block assigns the four fields of slot 3, the other bits read 0. -/
def execDinFields (card button chg1 chg0 : Bool) (s : State) : Result :=
  .next (s.setSlot 3 (packDin s.cfg card button chg1 chg0))

/-- `WK_FIELDS` (30_encoding.md R101): the host's byte of three fields and five stored bits written to slot 15. -/
def execWkFields (alarm chgStart chgDone : Bool) (x : Byte) (s : State) : Result :=
  .next (accessAt (canonical 15) (.write (packWk s.cfg alarm chgStart chgDone x)) s)

/-- `VERSION_FIELDS` (30_encoding.md R102): nothing writes slot 1 (10_state.md R15), so the byte of the two nibbles is
a host's write to slot 1, acknowledged and dropped (20_memory.md R69). -/
def execVersionFields (major minor : BitVec 4) (s : State) : Result :=
  .next (accessAt (canonical 1) (.write (packVersion major minor)) s)

end Sys2Proof.Machine
end

