-- ==== Sys2Proof/Machine/Dispatch.lean ====
section
/-! DEFINITION. One arm for each row of spec/opcode_table.json: a direct call of the row's meaning. -/

namespace Sys2Proof.Machine

/-- What an instruction does to the state. -/
def exec (i : Instr) (s : State) : Host.Outcome State Fault Refusal :=
  match i with
  | .startOther a rw => Sys2Proof.Machine.execStartOther a rw s
  | .startW => Sys2Proof.Machine.execStartW s
  | .startR => Sys2Proof.Machine.execStartR s
  | .addrHi b => Sys2Proof.Machine.execAddrHi b s
  | .addrLo b => Sys2Proof.Machine.execAddrLo b s
  | .wrData b => Sys2Proof.Machine.execWrData b s
  | .rdAck => Sys2Proof.Machine.execRdAck s
  | .rdNack => Sys2Proof.Machine.execRdNack s
  | .stop => Sys2Proof.Machine.execStop s
  | .busErr => Sys2Proof.Machine.execBusErr s
  | .wdataInRead b => Sys2Proof.Machine.execWdataInRead b s
  | .rackInWrite e => Sys2Proof.Machine.execRackInWrite e s
  | .notAddressed e => Sys2Proof.Machine.execNotAddressed e s
  | .busInactive e => Sys2Proof.Machine.execBusInactive e s
  | .hangguard => Sys2Proof.Machine.execHangguard s
  | .suspend => Sys2Proof.Machine.execSuspend s
  | .resume => Sys2Proof.Machine.execResume s
  | .shutdown => Sys2Proof.Machine.execShutdown s
  | .tick => Sys2Proof.Machine.execTick s
  | .loopStep p => Sys2Proof.Machine.execLoopStep p s
  | .evalPs => Sys2Proof.Machine.execEvalPs s
  | .evalRtc => Sys2Proof.Machine.execEvalRtc s
  | .evalDio p => Sys2Proof.Machine.execEvalDio p s
  | .evalInd => Sys2Proof.Machine.execEvalInd s
  | .evalRun => Sys2Proof.Machine.execEvalRun s
  | .wdtExpire p => Sys2Proof.Machine.execWdtExpire p s
  | .second => Sys2Proof.Machine.execSecond s
  | .sample ch v => Sys2Proof.Machine.execSample ch v s
  | .powerOn p => Sys2Proof.Machine.execPowerOn p s
  | .wakeup p => Sys2Proof.Machine.execWakeup p s
  | .write8 a v => Sys2Proof.Machine.execWrite8 a v s
  | .write16 a v => Sys2Proof.Machine.execWrite16 a v s
  | .write32 a v => Sys2Proof.Machine.execWrite32 a v s
  | .read8 a => Sys2Proof.Machine.execRead8 a s
  | .read16 a => Sys2Proof.Machine.execRead16 a s
  | .read32 a => Sys2Proof.Machine.execRead32 a s
  | .nvwrite a d => Sys2Proof.Machine.execNvwrite a d s
  | .nvread a n => Sys2Proof.Machine.execNvread a n s
  | .setptr a => Sys2Proof.Machine.execSetptr a s
  | .ptrPersist p acc => Sys2Proof.Machine.execPtrPersist p acc s
  | .slotId x acc => Sys2Proof.Machine.execSlotId x acc s
  | .slotVersion x acc => Sys2Proof.Machine.execSlotVersion x acc s
  | .slotStatus x acc => Sys2Proof.Machine.execSlotStatus x acc s
  | .slotDin x acc => Sys2Proof.Machine.execSlotDin x acc s
  | .slotMeas0H x acc => Sys2Proof.Machine.execSlotMeas0H x acc s
  | .slotMeas0L x acc => Sys2Proof.Machine.execSlotMeas0L x acc s
  | .slotMeas1H x acc => Sys2Proof.Machine.execSlotMeas1H x acc s
  | .slotMeas1L x acc => Sys2Proof.Machine.execSlotMeas1L x acc s
  | .slotMeas2H x acc => Sys2Proof.Machine.execSlotMeas2H x acc s
  | .slotMeas2L x acc => Sys2Proof.Machine.execSlotMeas2L x acc s
  | .slotMeas3H x acc => Sys2Proof.Machine.execSlotMeas3H x acc s
  | .slotMeas3L x acc => Sys2Proof.Machine.execSlotMeas3L x acc s
  | .slotTempH x acc => Sys2Proof.Machine.execSlotTempH x acc s
  | .slotTempL x acc => Sys2Proof.Machine.execSlotTempL x acc s
  | .slotBl x acc => Sys2Proof.Machine.execSlotBl x acc s
  | .slotWk x acc => Sys2Proof.Machine.execSlotWk x acc s
  | .slotShdn x acc => Sys2Proof.Machine.execSlotShdn x acc s
  | .slotPress x acc => Sys2Proof.Machine.execSlotPress x acc s
  | .slotNvctl x acc => Sys2Proof.Machine.execSlotNvctl x acc s
  | .slotTime3 x acc => Sys2Proof.Machine.execSlotTime3 x acc s
  | .slotTime2 x acc => Sys2Proof.Machine.execSlotTime2 x acc s
  | .slotTime1 x acc => Sys2Proof.Machine.execSlotTime1 x acc s
  | .slotTime0 x acc => Sys2Proof.Machine.execSlotTime0 x acc s
  | .slotAlarm3 x acc => Sys2Proof.Machine.execSlotAlarm3 x acc s
  | .slotAlarm2 x acc => Sys2Proof.Machine.execSlotAlarm2 x acc s
  | .slotAlarm1 x acc => Sys2Proof.Machine.execSlotAlarm1 x acc s
  | .slotAlarm0 x acc => Sys2Proof.Machine.execSlotAlarm0 x acc s
  | .slotCorr3 x acc => Sys2Proof.Machine.execSlotCorr3 x acc s
  | .slotCorr2 x acc => Sys2Proof.Machine.execSlotCorr2 x acc s
  | .slotCorr1 x acc => Sys2Proof.Machine.execSlotCorr1 x acc s
  | .slotCorr0 x acc => Sys2Proof.Machine.execSlotCorr0 x acc s
  | .slotSlot31 x acc => Sys2Proof.Machine.execSlotSlot31 x acc s
  | .shdnRequest => Sys2Proof.Machine.execShdnRequest s
  | .nvCommit => Sys2Proof.Machine.execNvCommit s
  | .nvReload => Sys2Proof.Machine.execNvReload s
  | .nvOther v => Sys2Proof.Machine.execNvOther v s
  | .statusFields crit short reason => Sys2Proof.Machine.execStatusFields crit short reason s
  | .dinFields card button chg1 chg0 => Sys2Proof.Machine.execDinFields card button chg1 chg0 s
  | .wkFields alarm chgStart chgDone x => Sys2Proof.Machine.execWkFields alarm chgStart chgDone x s
  | .versionFields major minor => Sys2Proof.Machine.execVersionFields major minor s

end Sys2Proof.Machine
end

