-- ==== Sys2Proof/Machine/Inbox.lean ====
section
/-! DEFINITION. How an event is fetched: the first event of `State.inbox`, read in the slave's present context
(assumption log 1). -/

namespace Sys2Proof.Machine

/-- The next event, and the bytes after it. -/
def fetchEvent (s : State) : Decoded := decode s.ctx s.inbox

/-- The state with the first event's bytes taken off the events to come. -/
def State.take (s : State) (rest : List Byte) : State := { s with inbox := rest }

/-- The bytes after bytes that encode no event (assumption log 2): past the one byte that opens none, past a tag and its
operands where an operand stands for nothing, and none where the bytes end inside an event. -/
def pastNonEvent (e : DecodeError) (bs : List Byte) : List Byte :=
  match e with
  | .noBytes => []
  | .unknownTag _ => bs.drop 1
  | .truncated _ => []
  | .badChannel _ => bs.drop 4
  | .sampleTooWide _ => bs.drop 4
  | .badAccess _ _ => bs.drop 5
  | .emptyRead _ => bs.drop 5

/-- A step where there is no event to run: nothing happens but that bytes which encode no event are passed over, as
nothing in the encoding space traps (30_encoding.md R106; assumption log 1, 2). -/
def withoutEvent (e : DecodeError) (s : State) : Result := .next (s.take (pastNonEvent e s.inbox))

/-- The bytes are a start event's, which only an Active bus services. -/
def opensStart (bs : List Byte) : Bool := bs.head? == some Tag.start.toByte

/-- The event that a table word is, put before the events to come; for an address byte the bus is made Active, or
the slave would not service it (assumption log 21). -/
def placeTableWord (nbits w : Nat) (s : State) : State :=
  { s with
    inbox := tableBytes nbits w ++ s.inbox
    bus := { s.bus with mode := if opensStart (tableBytes nbits w) then .active else s.bus.mode } }

end Sys2Proof.Machine
end

