-- ==== Sys2Proof/Machine/Step.lean ====
section
/-! DEFINITION. One step of the block: the next event is read and run. -/

namespace Sys2Proof.Machine

/-- One step (spec 00_scope.md R5, R6): one atomic step of the agent whose event comes next. -/
def step (s : State) : Host.Outcome State Fault Refusal :=
  match fetchEvent s with
  | .ok (i, rest) => exec i (s.take rest)
  | .error e => withoutEvent e s

/-- `s` with the event of a table word stored where `step` takes its next event. -/
def State.withFetchWord (s : State) (nbits w : Nat) : State := placeTableWord nbits w s

end Sys2Proof.Machine
end

