-- ==== Sys2Proof/Safety.lean ====
section
/-! DEFINITION. What a run of the hardware is made of, the invariants of the state, and the tables of the spec that
statements compare the machine with. -/

namespace Sys2Proof

open Sys2Proof.Machine

/-- The instruction is a step of one of the agents of 00_scope.md R5, or a run of such steps (the composite
operations of the host). The other rows are parts of such a step, which stand alone in the table only: the
lifecycle operations and the evaluations (30_encoding.md R108), the access that a pointer word selects, a trigger
byte, a field layout (assumption log 6 to 9). -/
def Instr.isAgentStep : Instr → Bool
  | .startOther _ _ => true
  | .startW => true
  | .startR => true
  | .addrHi _ => true
  | .addrLo _ => true
  | .wrData _ => true
  | .rdAck => true
  | .rdNack => true
  | .stop => true
  | .busErr => true
  | .wdataInRead _ => true
  | .rackInWrite _ => true
  | .notAddressed _ => true
  | .busInactive _ => true
  | .hangguard => true
  | .suspend => false
  | .resume => false
  | .shutdown => false
  | .tick => true
  | .loopStep _ => true
  | .evalPs => false
  | .evalRtc => false
  | .evalDio _ => false
  | .evalInd => false
  | .evalRun => false
  | .wdtExpire _ => true
  | .second => true
  | .sample _ _ => true
  | .powerOn _ => true
  | .wakeup _ => true
  | .write8 _ _ => true
  | .write16 _ _ => true
  | .write32 _ _ => true
  | .read8 _ => true
  | .read16 _ => true
  | .read32 _ => true
  | .nvwrite _ _ => true
  | .nvread _ _ => true
  | .setptr _ => true
  | .ptrPersist _ _ => false
  | .slotId _ _ => false
  | .slotVersion _ _ => false
  | .slotStatus _ _ => false
  | .slotDin _ _ => false
  | .slotMeas0H _ _ => false
  | .slotMeas0L _ _ => false
  | .slotMeas1H _ _ => false
  | .slotMeas1L _ _ => false
  | .slotMeas2H _ _ => false
  | .slotMeas2L _ _ => false
  | .slotMeas3H _ _ => false
  | .slotMeas3L _ _ => false
  | .slotTempH _ _ => false
  | .slotTempL _ _ => false
  | .slotBl _ _ => false
  | .slotWk _ _ => false
  | .slotShdn _ _ => false
  | .slotPress _ _ => false
  | .slotNvctl _ _ => false
  | .slotTime3 _ _ => false
  | .slotTime2 _ _ => false
  | .slotTime1 _ _ => false
  | .slotTime0 _ _ => false
  | .slotAlarm3 _ _ => false
  | .slotAlarm2 _ _ => false
  | .slotAlarm1 _ _ => false
  | .slotAlarm0 _ _ => false
  | .slotCorr3 _ _ => false
  | .slotCorr2 _ _ => false
  | .slotCorr1 _ _ => false
  | .slotCorr0 _ _ => false
  | .slotSlot31 _ _ => false
  | .shdnRequest => false
  | .nvCommit => false
  | .nvReload => false
  | .nvOther _ => false
  | .statusFields _ _ _ => false
  | .dinFields _ _ _ _ => false
  | .wkFields _ _ _ _ => false
  | .versionFields _ _ => false

/-- The instruction is a step of an agent inside the block: a timer, the sampler, the super-loop, the watchdog or
the upstream logic (00_scope.md R5). -/
def Instr.isInternalStep : Instr → Bool
  | .hangguard | .tick | .loopStep _ | .wdtExpire _ | .second | .sample _ _ | .powerOn _ | .wakeup _ => true
  | .startOther _ _ | .startW | .startR | .addrHi _ | .addrLo _ | .wrData _ | .rdAck | .rdNack | .stop | .busErr
  | .wdataInRead _ | .rackInWrite _ | .notAddressed _ | .busInactive _ => false
  | .suspend | .resume | .shutdown | .evalPs | .evalRtc | .evalDio _ | .evalInd | .evalRun => false
  | .write8 _ _ | .write16 _ _ | .write32 _ _ | .read8 _ | .read16 _ | .read32 _ | .nvwrite _ _ | .nvread _ _
  | .setptr _ => false
  | .ptrPersist _ _ | .slotId _ _ | .slotVersion _ _ | .slotStatus _ _ | .slotDin _ _ | .slotMeas0H _ _
  | .slotMeas0L _ _ | .slotMeas1H _ _ | .slotMeas1L _ _ | .slotMeas2H _ _ | .slotMeas2L _ _ | .slotMeas3H _ _
  | .slotMeas3L _ _ | .slotTempH _ _ | .slotTempL _ _ | .slotBl _ _ | .slotWk _ _ | .slotShdn _ _ | .slotPress _ _
  | .slotNvctl _ _ | .slotTime3 _ _ | .slotTime2 _ _ | .slotTime1 _ _ | .slotTime0 _ _ | .slotAlarm3 _ _
  | .slotAlarm2 _ _ | .slotAlarm1 _ _ | .slotAlarm0 _ _ | .slotCorr3 _ _ | .slotCorr2 _ _ | .slotCorr1 _ _
  | .slotCorr0 _ _ | .slotSlot31 _ _ => false
  | .shdnRequest | .nvCommit | .nvReload | .nvOther _ => false
  | .statusFields _ _ _ | .dinFields _ _ _ _ | .wkFields _ _ _ _ | .versionFields _ _ => false

/-- The instruction is something the host or the line does on the bus (00_scope.md R5): a bus-event row or a
composite operation of the host. -/
def Instr.isBusStep (i : Instr) : Bool := i.isAgentStep && !i.isInternalStep

/-- The instructions run one after the other; none where one of them does not answer a next state. -/
def runs (is : List Instr) (s : State) : Option State :=
  match is with
  | [] => some s
  | i :: is =>
    match exec i s with
    | .next t => runs is t
    | .fault _ => none
    | .refused _ => none

/-- The evaluation row of a consumer (41_tick_scheduler.md R187). -/
def evalRow (i : Consumer) (p : Pins) : Instr :=
  match i with
  | .ps => .evalPs
  | .rtc => .evalRtc
  | .dio => .evalDio p
  | .ind => .evalInd
  | .run => .evalRun

/-- Two pointers select the same location (20_memory.md R60, R80). -/
def sameLocation (p q : Half) : Bool :=
  if p.toNat < Config.persistSize then p == q
  else decide (Config.persistSize ≤ q.toNat) && slotOf p == slotOf q

/-- The byte that a write of `b` through a pointer leaves at its location, where the location held `old`
(20_memory.md R62, R69). -/
def storedByte (c : Config) (p : Half) (old b : Byte) : Byte :=
  if p.toNat < Config.persistSize then b
  else if (slotOf p).val < Config.roBoundary then old
  else if slotOf p = 18 then nvctlFilter c b
  else b

/-- The bytes of `d` written from pointer `p` on, one `RegWrite` each, the pointer wrapping (30_encoding.md R94,
20_memory.md R63). -/
def writeRun (p : Half) (d : List Byte) (s : State) : State :=
  match d with
  | [] => s
  | b :: d => writeRun (p + 1#16) d (regWrite p b s)

/-- `n` bytes read from pointer `p` on, one `RegRead` each, and the state after their side effects
(30_encoding.md R95, 20_memory.md R63). -/
def readRun (p : Half) (n : Nat) (s : State) : List Byte × State :=
  match n with
  | 0 => ([], s)
  | n + 1 =>
    ((regRead p s).1 :: (readRun (p + 1#16) n (regRead p s).2).1, (readRun (p + 1#16) n (regRead p s).2).2)

/-- The sampler's result number `j`: `meas[j]` for `j` below 4, else `temp` (20_memory.md R61). -/
def resultAt (s : State) (j : Fin 5) : Half := if h : j.val < 4 then s.meas[j.val] else s.temp

/-- The high-byte slot of result `j`: 4, 6, 8, 10 or 12 (10_state.md R18). -/
def highSlot (j : Fin 5) : Fin 32 := ⟨4 + 2 * j.val, by omega⟩

/-! ## The store invariant -/

/-- Both byte stores are in canonical form, `mem` below 4096 and `nv` below 1024. -/
def storesOk (s : State) : Bool :=
  Memory.wf Config.persistSize s.mem && Memory.wf Config.nvMirrorSize s.nv

/-! ## The output table (45_power_sequencer.md R285) -/

/-- A row of the table of 45_power_sequencer.md R285. -/
structure OutputRow where
  mainRail : Bool
  auxRail : Bool
  blOn : Bool
  mode : BusMode
  indEn : Bool
deriving DecidableEq, Repr

/-- The table of 45_power_sequencer.md R285. -/
def outputTable : RunState → OutputRow
  | .wake     => ⟨false, true,  false, .disabled,  true⟩
  | .charge   => ⟨false, true,  false, .suspended, true⟩
  | .wait     => ⟨true,  true,  true,  .disabled,  true⟩
  | .power    => ⟨true,  true,  true,  .active,    true⟩
  | .powerOff => ⟨false, true,  false, .active,    true⟩
  | .sleep    => ⟨false, false, false, .disabled,  false⟩

/-- The outputs and the bus mode as the state has them. -/
def outputsOf (s : State) : OutputRow := ⟨s.mainRail, s.auxRail, s.blOn, s.bus.mode, s.ind.en⟩

/-- The bus state fits its mode and phase: the hang guard runs exactly while Active, a bus that is not Active has no
transaction, a phase other than Idle and an asserted acknowledge line are inside a transaction (40_register_bus.md
R144), and the address phases have direction W (R134). -/
def busOk (b : BusState) : Bool :=
  b.hgRun == (b.mode == .active) &&
  (b.mode == .active || (b.phase == .idle && !b.inTransfer && !b.ack)) &&
  (!b.ack || b.inTransfer) &&
  (b.phase == .idle || b.inTransfer) &&
  (!(b.phase == .addrHi || b.phase == .addrLo) || b.dir == .w)

/-- The outputs are the run state's row, the bus state is coherent, and the loop is halted exactly in Sleep
(10_state.md R47). -/
def powerOk (s : State) : Bool :=
  outputsOf s == outputTable s.run && busOk s.bus && (s.halted == (s.run == .sleep))

/-! ## The ranges of the counters (10_state.md R35, R36, R38, R42, R46, R48, R49) -/

/-- Every `sched.dec[i]` is below `PERIOD[i]`. -/
def decOk (c : Config) (d : PerConsumer Nat) : Bool :=
  decide (d.ps < c.period.ps) && decide (d.rtc < c.period.rtc) && decide (d.dio < c.period.dio) &&
  decide (d.ind < c.period.ind) && decide (d.run < c.period.run)

/-- Every counter is inside the range that 10_state.md gives it. -/
def countersOk (s : State) : Bool :=
  decide (s.sched.sub < s.cfg.ticksPerMs) && decOk s.cfg s.sched.dec && decide (s.wdtCnt ≤ s.cfg.wdtTicks) &&
  decide (s.dio.pressCnt ≤ s.cfg.longPressTicks) && decide (s.ind.cnt ≤ s.cfg.blinkHalf) &&
  decide (s.critCnt ≤ s.cfg.critTimeout + s.cfg.critGrace) && decide (s.ps.idx ≤ Config.nvMirrorSize) &&
  s.filt.tbuf.length == s.cfg.tempDepth && decide (s.filt.tpos < s.cfg.tempDepth)

/-- The temperature's running sum is the sum of its buffer (10_state.md R49, 46_boundary_modules.md R311). -/
def tempOk (s : State) : Bool :=
  s.filt.tsum == (s.filt.tbuf.map (fun v => v.zeroExtend 32)).foldl (fun a v => a + v) 0#32

/-! ## What the system-owned slots hold (10_state.md R14 to R17, R23) -/

/-- Identity and version hold their constants, the unnamed bits of `STATUS` and `DIN` are 0, and `NVCTL` is one of
its four values. -/
def slotsOk (s : State) : Bool :=
  s.slot 0 == s.cfg.idValue && s.slot 1 == packVersion s.cfg.versionMajor s.cfg.versionMinor &&
  s.slot 2 == packStatus s.cfg s.statusCrit s.statusShort s.statusReason &&
  s.slot 3 == s.dinPack &&
  (s.slot 18 == Config.nvIdle || s.slot 18 == Config.nvBusy || s.slot 18 == s.cfg.nvCmdCommit ||
    s.slot 18 == s.cfg.nvCmdReload)

/-! ## The phase table (40_register_bus.md R151) -/

/-- The next phase for each phase and direction and each wire event while Active; `addressed` says whether a start is
for this slave. -/
def phaseTable (addressed : Bool) (ph : Phase) (dir : Dir) (e : WireEvent) : Phase :=
  match e with
  | .start _ .w => if addressed then .addrHi else .idle
  | .start _ .r => if addressed then .data else .idle
  | .stop => .idle
  | .busErr => .idle
  | .wdata _ =>
    match ph, dir with
    | .idle, _ => .idle
    | .addrHi, _ => .addrLo
    | .addrLo, _ => .data
    | .data, .w => .data
    | .data, .r => .idle
  | .rack =>
    match ph, dir with
    | .data, .r => .data
    | _, _ => .idle
  | .rnack => .idle

/-! ## The transition table (45_power_sequencer.md R282) -/

/-- The run state after an evaluation, by the first condition of 45_power_sequencer.md R282 that holds; the critical
exit and the shutdown trigger as R272 and R277 give them: the exit at an evaluation below `VBAT_CRIT` that brings the
count to `CRIT_TIMEOUT + CRIT_GRACE`, or finds it there. -/
def nextRun (s : State) : RunState :=
  match s.run with
  | .wake =>
    if (s.alarmPending || s.chargeWake) && s.batteryOk then .power
    else if s.extPwr then .charge
    else if s.heldShort && s.batteryOk then .wait
    else if !s.batteryOk || !s.dio.btn.deb then .sleep
    else .wake
  | .charge =>
    if s.batteryOk && (s.alarmPending || s.chargeDoneWake || s.heldShort) then .power
    else if s.chgState == .off || (s.chgState != .charging && !s.batteryOk) then .sleep
    else .charge
  | .wait => if s.dio.btn.deb then .wait else .power
  | .power =>
    if s.longPress then .powerOff
    else if (decide (s.meas[s.cfg.vbatCh.val].toNat < s.cfg.vbatCrit.toNat) &&
        decide (s.cfg.critTimeout + s.cfg.critGrace ≤ s.critCnt + 1)) || s.slot 16 == s.cfg.shdnSentinel then
      (if s.extPwr then .charge else .sleep)
    else .power
  | .powerOff => if s.dio.btn.deb then .powerOff else if s.extPwr then .charge else .sleep
  | .sleep => .sleep

end Sys2Proof
end

