-- ==== Sys2Proof/Certificates/Slice0/Obligations.lean ====
section
/-! DEFINITION. The statements for the provers. Each docstring says which rule of the spec it formalises, or which
choice of the model (notes/assumptions) it is about. -/

section Slice0

open Sys2Proof Sys2Proof.Machine

/-! ## Encoding -/

/-- Decoding the bytes of a well-formed instruction gives the instruction back, whatever follows it, for every row,
every operand, every configuration and every context. The tag bytes before an event are the model's own
(assumption log 2); address bytes, pointers, trigger bytes and layouts are 30_encoding.md R91, R97 to R103. -/
def Obligations.DecodeEncodeAgree : Prop :=
  ∀ (c : Ctx) (i : Instr) (rest : List Byte), c.cfg.wf = true → i.wellFormed c = true →
    decode c (encode c.cfg i ++ rest) = .ok (i, rest)

/-- The decoder answers only instructions that are well formed in the context it reads them in, and each takes at
least one byte. For a bus event that is: the row of 40_register_bus.md R151 that applies. That an event is read from
bytes, at least one of them, is the model's own form (assumption log 2). -/
def Obligations.DecodedIsWellFormed : Prop :=
  ∀ (c : Ctx) (bs : List Byte) (i : Instr) (rest : List Byte), decode c bs = .ok (i, rest) →
    i.wellFormed c = true ∧ rest.length < bs.length

/-- A few words written out from the spec's encodings: the address bytes 0x24 and 0x25 of CFG0 (30_encoding.md R91),
the pointers 0x0FFF and 0x1000 at the region boundary (20_memory.md R60), 0x100E and its alias 0xFFEE (R80), the
trigger bytes (30_encoding.md R103) and a packed version (R102). The tag byte before each and the two access bytes
after each pointer word are the model's own (assumption log 2), as is the access they stand for (log 7). -/
def Obligations.DecodesSpecWords : Prop :=
  decode tableCtx [0x01#8, 0x24#8] = .ok (.startW, []) ∧
  decode tableCtx [0x01#8, 0x25#8] = .ok (.startR, []) ∧
  decode tableCtx [0x01#8, 0x50#8] = .ok (.startOther 0x28#7 .w, []) ∧
  decode tableCtx [0x30#8, 0x0F#8, 0xFF#8, 0x00#8, 0x00#8] = .ok (.ptrPersist 0xFFF#12 .point, []) ∧
  decode tableCtx [0x30#8, 0x10#8, 0x00#8, 0x01#8, 0x00#8] = .ok (.slotId 0x080#11 .read, []) ∧
  decode tableCtx [0x30#8, 0x10#8, 0x0E#8, 0x02#8, 0x40#8] = .ok (.slotBl 0x080#11 (.write 0x40#8), []) ∧
  decode tableCtx [0x30#8, 0xFF#8, 0xEE#8, 0x00#8, 0x00#8] = .ok (.slotBl 0x7FF#11 .point, []) ∧
  decode tableCtx [0x31#8, 0x0F#8] = .ok (.shdnRequest, []) ∧
  decode tableCtx [0x32#8, 0x57#8] = .ok (.nvCommit, []) ∧
  decode tableCtx [0x32#8, 0x52#8] = .ok (.nvReload, []) ∧
  decode tableCtx [0x32#8, 0x33#8] = .ok (.nvOther 0x33#8, []) ∧
  decode tableCtx [0x36#8, 0x10#8] = .ok (.versionFields 1#4 0#4, [])

/-! ## The step -/

/-- A step runs the event that its next bytes decode to, with those bytes taken off the events to come and nothing
else around it; with no event to come nothing happens (assumption log 1), and bytes that encode no event are passed
over, at least one of them, with nothing else changed (assumption log 2). -/
def Obligations.StepRunsDecodedEvent : Prop :=
  (∀ (s : State) (i : Instr) (rest : List Byte), i.wellFormed s.ctx = true →
    decode s.ctx s.inbox = .ok (i, rest) → step s = exec i { s with inbox := rest }) ∧
  (∀ s : State, s.inbox = [] → step s = .next s) ∧
  (∀ (s : State) (e : DecodeError), s.inbox ≠ [] → decode s.ctx s.inbox = .error e →
    ∃ rest, rest <:+ s.inbox ∧ rest.length < s.inbox.length ∧ step s = .next { s with inbox := rest })

/-- Every instruction completes from every state: no pointer, data value, access or arithmetic faults
(60_exceptions.md R325). None of them changes the configuration or the events to come (assumption log 1, 4). So every
step goes on too, whatever the bytes to come are, and leaves fewer of them while there are any (assumption log 2). -/
def Obligations.EveryInstructionCompletes : Prop :=
  (∀ (i : Instr) (s : State), ∃ t, exec i s = .next t ∧ t.cfg = s.cfg ∧ t.inbox = s.inbox) ∧
  ∀ s : State, ∃ t, step s = .next t ∧ t.cfg = s.cfg ∧ t.inbox <:+ s.inbox ∧
    (s.inbox ≠ [] → t.inbox.length < s.inbox.length)

/-! ## Invariants -/

/-- Every step keeps `mem` inside 0..4095 and `nv` inside 0..1023 (10_state.md R11, R12) and both in canonical form:
addresses strictly rising, no 0x00 listed. The form, and that an unlisted byte reads 0x00, are the model's own
(assumption log 15 and 16). -/
def Obligations.StepKeepsCanonicalStores : Prop :=
  ∀ s t : State, storesOk s = true → step s = .next t → storesOk t = true

/-- Every step of an agent keeps the table of outputs and bus modes of 45_power_sequencer.md R285, the coherence of
the bus state, and `halted` set exactly in Sleep. The rows that are no agent's step (assumption log 6 to 9) are
shut out: a lifecycle operation by itself switches the bus without the sequencer. -/
def Obligations.AgentStepsKeepPowerTable : Prop :=
  ∀ (s t : State) (i : Instr) (rest : List Byte), decode s.ctx s.inbox = .ok (i, rest) → i.isAgentStep = true →
    powerOk s = true → step s = .next t → powerOk t = true

/-- Every step keeps every counter inside the range that 10_state.md gives it, and the temperature's running sum
equal to the sum of its buffer, under every configuration that meets 00_scope.md R7. -/
def Obligations.StepsKeepCounterRanges : Prop :=
  ∀ s t : State, s.cfg.wf = true → countersOk s = true → tempOk s = true → step s = .next t →
    countersOk t = true ∧ tempOk t = true

/-- Every step of an agent keeps what the system-owned slots hold: identity and version their constants, the
unnamed bits of STATUS and DIN 0, DIN the packed debounced inputs, NVCTL one of its four values. -/
def Obligations.AgentStepsKeepSystemSlots : Prop :=
  ∀ (s t : State) (i : Instr) (rest : List Byte), s.cfg.wf = true → decode s.ctx s.inbox = .ok (i, rest) →
    i.isAgentStep = true → slotsOk s = true → step s = .next t → slotsOk t = true

/-- The reset state meets every invariant, its configuration is CFG0 and well formed (assumption log 4), and it is
what POWER_ON leaves of any state with CFG0, an all-zero `nv` (log 15) and no draw made (log 18), where every pin
is 0 (log 17) and no event is to come (log 1). -/
def Obligations.ResetMeetsInvariants : Prop :=
  storesOk State.reset = true ∧ powerOk State.reset = true ∧ countersOk State.reset = true ∧
  slotsOk State.reset = true ∧ tempOk State.reset = true ∧ State.reset.cfg.wf = true ∧
  ∀ s : State, s.cfg = Config.cfg0 → s.nv = [] → s.draws = 0 → s.inbox = [] →
    exec (.powerOn ⟨false, false, false, false⟩) s = .next State.reset

/-! ## Bus events -/

/-- `START_W` (40_register_bus.md R132): while Active, in any phase, the transaction opens for writing and is
acknowledged. The pointer is kept, but for a transaction with one address byte, where it is unspecified (R143). -/
def Obligations.StartForWriteOpensTransaction : Prop :=
  ∀ s : State, s.bus.mode = .active →
    rowOfWire s.ctx (startOfByte (addressByte s.cfg.slaveAddr .w)) = .startW ∧
    ∃ q d, (s.bus.phase ≠ .addrLo → q = s.bus.ptr ∧ d = s.draws) ∧
      exec .startW s = .next { s with
        bus := { s.bus with dir := .w, phase := .addrHi, inTransfer := true, ack := true, ptr := q }
        draws := d
        out := [.ack] }

/-- `START_R`, `RD_ACK`, `RD_NACK` (40_register_bus.md R133, R137, R138): a read transaction opens in any phase; at its
start and at each acknowledge the byte at the pointer is fetched with its side effects and sent and the pointer
advances; a read not acknowledged fetches none, leaves the pointer, and keeps the transaction flag set. What a
fetch returns and changes is `regRead`, which RegisterReadRule states. -/
def Obligations.ReadTransactionFetchesBytes : Prop :=
  ∀ s : State, s.bus.mode = .active →
    rowOfWire s.ctx (startOfByte (addressByte s.cfg.slaveAddr .r)) = .startR ∧
    (∃ q d, (s.bus.phase ≠ .addrLo → q = s.bus.ptr ∧ d = s.draws) ∧
      exec .startR s = .next { (regRead q s).2 with
        bus := { s.bus with dir := .r, phase := .data, inTransfer := true, ack := true, ptr := q + 1#16 }
        draws := d
        out := [.ack, .tx (regRead q s).1] }) ∧
    (s.bus.phase = .data → s.bus.dir = .r →
      exec .rdAck s = .next { (regRead s.bus.ptr s).2 with
        bus := { s.bus with ptr := s.bus.ptr + 1#16 }, out := [.tx (regRead s.bus.ptr s).1] } ∧
      exec .rdNack s = .next { s with bus := { s.bus with phase := .idle, ack := false }, out := [] })

/-- `ADDR_HI` and `ADDR_LO` (40_register_bus.md R134, R135): the first byte is kept, the second loads the pointer
with the first byte in bits 15:8. -/
def Obligations.PointerBytesLoadPointer : Prop :=
  ∀ (s : State) (b : Byte), s.bus.mode = .active →
    (s.bus.phase = .addrHi →
      exec (.addrHi b) s =
        .next { s with bus := { s.bus with addrHi := b, phase := .addrLo, ack := true }, out := [.ack] }) ∧
    (s.bus.phase = .addrLo →
      ∃ p : Half, p.toNat = 256 * s.bus.addrHi.toNat + b.toNat ∧
        exec (.addrLo b) s =
          .next { s with bus := { s.bus with ptr := p, phase := .data, ack := true }, out := [.ack] })

/-- `WR_DATA` (40_register_bus.md R136, 20_memory.md R62, R69): the byte goes to the location the pointer selects and
nowhere else, a read-only slot keeps its value, the low byte of a 32-bit field sets its commit flag, the pointer
advances, and every byte is acknowledged. `peek` reads one location with no side effect. -/
def Obligations.WriteByteStoresAtPointer : Prop :=
  ∀ (s : State) (b : Byte), s.bus.mode = .active → s.bus.phase = .data → s.bus.dir = .w →
    ∃ t, exec (.wrData b) s = .next t ∧
      (∀ q, t.peek q =
        if sameLocation s.bus.ptr q then storedByte s.cfg s.bus.ptr (s.peek q) b else s.peek q) ∧
      (∀ a, 4096 ≤ a → Memory.read t.mem a = Memory.read s.mem a) ∧
      t.timeCommit = (s.timeCommit || decide (4096 ≤ s.bus.ptr.toNat ∧ s.bus.ptr.toNat % 32 = 22)) ∧
      t.alarmCommit = (s.alarmCommit || decide (4096 ≤ s.bus.ptr.toNat ∧ s.bus.ptr.toNat % 32 = 26)) ∧
      t.corrCommit = (s.corrCommit || decide (4096 ≤ s.bus.ptr.toNat ∧ s.bus.ptr.toNat % 32 = 30)) ∧
      t = { s with
        mem := t.mem, slots := t.slots, timeCommit := t.timeCommit, alarmCommit := t.alarmCommit
        corrCommit := t.corrCommit
        bus := { s.bus with ptr := s.bus.ptr + 1#16, ack := true }
        out := [.ack] }

/-- The two outputs (44_indicator.md R241, R242, 20_memory.md R74): in every state the backlight is the byte of `BL`
while the gate is on and 0 while it is off, and the indicator is its level while it is enabled and 0 while it is
disabled. A byte written to `BL` through any of its addresses is the backlight's duty value in the same step, and the
indicator's is as before. -/
def Obligations.BacklightTracksBrightness : Prop :=
  ∀ s : State,
    s.pwmBl = (if s.blOn then s.slot 14 else 0x00#8) ∧
    s.pwmInd = (if s.ind.en then s.ind.level else 0x00#8) ∧
    ∀ b : Byte, s.bus.mode = .active → s.bus.phase = .data → s.bus.dir = .w →
      4096 ≤ s.bus.ptr.toNat → s.bus.ptr.toNat % 32 = 14 →
      ∃ t, exec (.wrData b) s = .next t ∧ t.pwmBl = (if s.blOn then b else 0x00#8) ∧ t.pwmInd = s.pwmInd

/-- `RegRead` (20_memory.md R61): a byte of `mem`; STATUS with its `short` bit cleared by the read that reports it;
the high byte of a result, the pair latched; any other slot. Nothing but slots changes. -/
def Obligations.RegisterReadRule : Prop :=
  ∀ (s : State) (p : Half),
    (regRead p s).2 = { s with slots := (regRead p s).2.slots } ∧
    (p.toNat < 4096 → (regRead p s).1 = Memory.read s.mem p.toNat ∧ ∀ k, (regRead p s).2.slot k = s.slot k) ∧
    (4096 ≤ p.toNat → p.toNat % 32 = 2 →
      (regRead p s).1 = s.slot 2 ∧
      (∀ n < 8, ((regRead p s).2.slot 2).getLsbD n = (decide (n ≠ s.cfg.stShortBit) && (s.slot 2).getLsbD n)) ∧
      ∀ k, k ≠ 2 → (regRead p s).2.slot k = s.slot k) ∧
    (∀ j : Fin 5, 4096 ≤ p.toNat → p.toNat % 32 = (highSlot j).val →
      (regRead p s).1 = hiByte (resultAt s j) ∧
      (regRead p s).2.slot (highSlot j) = hiByte (resultAt s j) ∧
      (regRead p s).2.slot (highSlot j + 1) = loByte (resultAt s j) ∧
      ∀ k, k ≠ highSlot j → k ≠ highSlot j + 1 → (regRead p s).2.slot k = s.slot k) ∧
    (4096 ≤ p.toNat → p.toNat % 32 ≠ 2 → (∀ j, p.toNat % 32 ≠ (highSlot j).val) →
      (regRead p s).1 = s.slot (slotOf p) ∧ ∀ k, (regRead p s).2.slot k = s.slot k)

/-- `STOP`, `BUS_ERR` and a start for another address (40_register_bus.md R131, R139, R140): from any phase the
transaction ends, what it stored stays stored, and the pointer is kept but for one address byte (R143). -/
def Obligations.EndOfTransaction : Prop :=
  ∀ s : State, s.bus.mode = .active →
    ∃ q d, (s.bus.phase ≠ .addrLo → q = s.bus.ptr ∧ d = s.draws) ∧
      exec .stop s = .next { s with
        bus := { s.bus with phase := .idle, inTransfer := false, ack := false, ptr := q }, draws := d, out := [] } ∧
      exec .busErr s = .next { s with
        bus := { s.bus with phase := .idle, inTransfer := false, ack := false, ptr := q }, draws := d, out := [] } ∧
      ∀ (a : BitVec 7) (rw : Dir), a ≠ s.cfg.slaveAddr →
        exec (.startOther a rw) s = .next { s with
          bus := { s.bus with phase := .idle, inTransfer := false, ack := false, ptr := q }
          draws := d
          out := [.nack] }

/-- Out-of-sequence events raise the protocol reset (40_register_bus.md R141); events while not addressed and events
while the bus is not Active change nothing but what the slave answers (R142, R150). -/
def Obligations.UnexpectedEventsResetOrAreIgnored : Prop :=
  ∀ (s : State) (e : WireEvent) (b : Byte),
    (s.bus.mode = .active → s.bus.phase = .data → s.bus.dir = .r →
      exec (.wdataInRead b) s = .next { s with
        bus := { s.bus with phase := .idle, inTransfer := false, ack := false }, out := [.nack] }) ∧
    (s.bus.mode = .active → s.ctx.expectsWrite = true → e = .rack ∨ e = .rnack →
      ∃ q d, (s.bus.phase ≠ .addrLo → q = s.bus.ptr ∧ d = s.draws) ∧
        exec (.rackInWrite e) s = .next { s with
          bus := { s.bus with phase := .idle, inTransfer := false, ack := false, ptr := q }, draws := d, out := [] }) ∧
    (s.bus.mode = .active → s.bus.phase = .idle → e.isDataEvent = true →
      exec (.notAddressed e) s = .next { s with out := if e.isAckEvent then [] else [.nack] }) ∧
    (s.bus.mode ≠ .active →
      ∃ r, exec (.busInactive e) s = .next { s with out := r } ∧
        ((∃ a rw, e = .start a rw) ∨ (∃ c, e = .wdata c) → r = [.nack]) ∧
        (e.isAckEvent = true ∨ e = .stop ∨ e = .busErr → r = []))

/-- The phase machine in one table (40_register_bus.md R151): while Active, the row the decoder picks for a wire event
takes the slave to the table's next phase. `in_transfer` is 1 after a start for this slave, 0 after a start for
another address, `STOP`, `BUS_ERR` and every protocol reset, and unchanged otherwise. -/
def Obligations.PhaseMachineFollowsTable : Prop :=
  ∀ (s : State) (e : WireEvent), s.bus.mode = .active →
    ∃ t, exec (rowOfWire s.ctx e) s = .next t ∧
      t.bus.mode = .active ∧
      t.bus.phase = phaseTable (match e with | .start a _ => decide (a = s.cfg.slaveAddr) | _ => true)
        s.bus.phase s.bus.dir e ∧
      (∀ rw, e = .start s.cfg.slaveAddr rw → t.bus.inTransfer = true ∧ t.bus.dir = rw) ∧
      (∀ a rw, e = .start a rw → a ≠ s.cfg.slaveAddr → t.bus.inTransfer = false) ∧
      (e = .stop ∨ e = .busErr → t.bus.inTransfer = false) ∧
      (e.isDataEvent = true →
        t.bus.inTransfer = (s.bus.inTransfer &&
          !(s.ctx.expectsWrite && e.isAckEvent) &&
          !(s.bus.phase == .data && s.bus.dir == .r && !e.isAckEvent)))

/-- The slave acknowledges every byte of a write transaction it is addressed in, and never answers NACK but by
leaving the transaction or while it is in none (40_register_bus.md R148). -/
def Obligations.WriteBytesAreAcknowledged : Prop :=
  ∀ (s t : State) (e : WireEvent), s.bus.mode = .active → exec (rowOfWire s.ctx e) s = .next t →
    (s.ctx.expectsWrite = true → (∃ b, e = .wdata b) → t.out = [.ack]) ∧
    (.nack ∈ t.out → t.bus.phase = .idle)

/-- `HANGGUARD` (40_register_bus.md R144): where it is enabled it releases the acknowledge line when no transaction is
in progress and touches nothing else; with a coherent bus state it changes nothing. Where it is not enabled it
changes nothing (assumption log 3). `SUSPEND`, `RESUME`, `SHUTDOWN` (R145 to R147), each by itself (log 6). -/
def Obligations.HangGuardAndLifecycleOperations : Prop :=
  ∀ s : State,
    (s.bus.hgRun = true → s.halted = false →
      exec .hangguard s = .next { s with bus := { s.bus with ack := s.bus.ack && s.bus.inTransfer } }) ∧
    (s.bus.hgRun = false ∨ s.halted = true → exec .hangguard s = .next s) ∧
    (busOk s.bus = true → exec .hangguard s = .next s) ∧
    exec .resume s = .next { s with
      bus := { s.bus with phase := .idle, inTransfer := false, ack := false, hgRun := true, mode := .active } } ∧
    ∃ q d, (s.bus.phase ≠ .addrLo → q = s.bus.ptr ∧ d = s.draws) ∧
      exec .suspend s = .next { s with
        bus := { s.bus with mode := .suspended, hgRun := false, ack := false, phase := .idle, inTransfer := false
                            ptr := q }
        draws := d } ∧
      exec .shutdown s = .next { s with
        bus := { s.bus with mode := .disabled, hgRun := false, ack := false, phase := .idle, inTransfer := false
                            ptr := q }
        draws := d }

/-- What the host can reach (60_exceptions.md R333): a bus event or a composite operation of the host changes `mem`,
slots, commit flags and the bus transaction, never the bus mode; of the read-only slots it changes the `short` bit
of STATUS and the measurement latches only. -/
def Obligations.HostReachesRegisterSpaceOnly : Prop :=
  ∀ (i : Instr) (s t : State), i.isBusStep = true → exec i s = .next t →
    t = { s with
      mem := t.mem, slots := t.slots, timeCommit := t.timeCommit, alarmCommit := t.alarmCommit
      corrCommit := t.corrCommit, bus := t.bus, out := t.out, draws := t.draws } ∧
    t.bus.mode = s.bus.mode ∧ t.bus.hgRun = s.bus.hgRun ∧
    t.slot 0 = s.slot 0 ∧ t.slot 1 = s.slot 1 ∧ t.slot 3 = s.slot 3 ∧
    ∀ n, n ≠ s.cfg.stShortBit → (t.slot 2).getLsbD n = (s.slot 2).getLsbD n

/-! ## The register space -/

/-- A pointer below 4096 selects a byte of `mem` (20_memory.md R60, 10_state.md R11), read and written with no side
effect. The three accesses of the row are assumption log 7. -/
def Obligations.PersistentPointerAccess : Prop :=
  ∀ (p : BitVec 12) (b : Byte) (s : State),
    exec (.ptrPersist p .point) s = .next { s with bus := { s.bus with ptr := persistPointer p }, out := [] } ∧
    exec (.ptrPersist p .read) s = .next { s with
      bus := { s.bus with ptr := persistPointer p + 1#16 }, out := [.tx (Memory.read s.mem p.toNat)] } ∧
    ∃ t, exec (.ptrPersist p (.write b)) s = .next t ∧
      (∀ a, Memory.read t.mem a = if a = p.toNat then b else Memory.read s.mem a) ∧
      t = { s with mem := t.mem, bus := { s.bus with ptr := persistPointer p + 1#16 }, out := [.ack] }

/-- Every slot's pointer row, of SLOT_ID to SLOT_SLOT31, loads the pointer whose low five bits are the slot number
(30_encoding.md R98, R112; assumption log 7). A read through it sends the slot and changes nothing but the pointer,
for every slot but 2, 4, 6, 8, 10 and 12 (20_memory.md R61, R67): SLOT_ID, SLOT_VERSION, SLOT_DIN, the five low
bytes, SLOT_BL to SLOT_SLOT31. -/
def Obligations.SlotRowsLoadPointerAndRead : Prop :=
  ∀ (k : Fin 32) (x : BitVec 11) (s : State),
    ∃ p : Half, p.toNat = 32 * x.toNat + k.val ∧
      exec (slotRow k.val x .point) s = .next { s with bus := { s.bus with ptr := p }, out := [] } ∧
      (slotPrefixOk x = true → k.val ∉ [2, 4, 6, 8, 10, 12] →
        exec (slotRow k.val x .read) s = .next { s with
          bus := { s.bus with ptr := p + 1#16 }, out := [.tx (s.slot k)] })

/-- The two reads with a side effect (20_memory.md R61, R67, R79): STATUS is sent and its `short` bit cleared; the
high byte of MEAS0 to MEAS3 and TEMP is sent and the pair latched. -/
def Obligations.ReadsWithSideEffects : Prop :=
  ∀ (x : BitVec 11) (s : State), slotPrefixOk x = true →
    (∃ t, exec (.slotStatus x .read) s = .next t ∧
      (∀ n < 8, (t.slot 2).getLsbD n = (decide (n ≠ s.cfg.stShortBit) && (s.slot 2).getLsbD n)) ∧
      (∀ k, k ≠ 2 → t.slot k = s.slot k) ∧
      t = { s with
        slots := t.slots, bus := { s.bus with ptr := slotPointer x 2 + 1#16 }, out := [.tx (s.slot 2)] }) ∧
    ∀ j : Fin 5, ∃ t, exec (slotRow (highSlot j).val x .read) s = .next t ∧
      t.slot (highSlot j) = hiByte (resultAt s j) ∧ t.slot (highSlot j + 1) = loByte (resultAt s j) ∧
      (∀ k, k ≠ highSlot j → k ≠ highSlot j + 1 → t.slot k = s.slot k) ∧
      t = { s with
        slots := t.slots, bus := { s.bus with ptr := slotPointer x (highSlot j).val + 1#16 }
        out := [.tx (hiByte (resultAt s j))] }

/-- Writes through a slot's pointer row (20_memory.md R62, R69, 10_state.md R28), acknowledged whatever the slot. To
slots 0 to 13, SLOT_ID to SLOT_TEMP_L: nothing but the pointer changes. To slots 14 to 31 but 18, SLOT_BL to
SLOT_PRESS and SLOT_TIME_3 to SLOT_SLOT31: the byte is stored in that slot and no other, and the low byte of a
32-bit field sets its commit flag. -/
def Obligations.SlotWritesStoreOrAreDropped : Prop :=
  ∀ (k : Fin 32) (x : BitVec 11) (b : Byte) (s : State), slotPrefixOk x = true →
    (k.val < 14 → exec (slotRow k.val x (.write b)) s = .next { s with
      bus := { s.bus with ptr := slotPointer x k.val + 1#16 }, out := [.ack] }) ∧
    (14 ≤ k.val → k ≠ 18 → ∃ t, exec (slotRow k.val x (.write b)) s = .next t ∧
      (∀ j, t.slot j = if j = k then b else s.slot j) ∧
      t = { s with
        slots := t.slots
        timeCommit := s.timeCommit || k == 22
        alarmCommit := s.alarmCommit || k == 26
        corrCommit := s.corrCommit || k == 30
        bus := { s.bus with ptr := slotPointer x k.val + 1#16 }
        out := [.ack] })

/-- The trigger bytes (30_encoding.md R103, 20_memory.md R62): a byte to NVCTL is stored if it is a sentinel and
stores NV_IDLE otherwise; the sentinel of SHDN is stored in slot 16. The write through SLOT_NVCTL is the access of a
pointer row, which loads the pointer and leaves it one past, answers ACK and does not ask for the bus mode (assumption
log 7). A trigger row writes at its slot's canonical address in the same way (assumption log 8). -/
def Obligations.TriggerBytesAreFiltered : Prop :=
  ∀ (x : BitVec 11) (b : Byte) (s : State), s.cfg.wf = true →
    (slotPrefixOk x = true → ∃ t, exec (.slotNvctl x (.write b)) s = .next t ∧
      (∀ j, t.slot j = if j = 18 then (if b = s.cfg.nvCmdCommit ∨ b = s.cfg.nvCmdReload then b else 0x00#8)
        else s.slot j) ∧
      t = { s with slots := t.slots, bus := { s.bus with ptr := slotPointer x 18 + 1#16 }, out := [.ack] }) ∧
    (∃ t, exec .nvCommit s = .next t ∧
      (∀ j, t.slot j = if j = 18 then s.cfg.nvCmdCommit else s.slot j) ∧
      t = { s with slots := t.slots, bus := { s.bus with ptr := 0x1013#16 }, out := [.ack] }) ∧
    (∃ t, exec .nvReload s = .next t ∧
      (∀ j, t.slot j = if j = 18 then s.cfg.nvCmdReload else s.slot j) ∧
      t = { s with slots := t.slots, bus := { s.bus with ptr := 0x1013#16 }, out := [.ack] }) ∧
    (b ≠ s.cfg.nvCmdCommit → b ≠ s.cfg.nvCmdReload → ∃ t, exec (.nvOther b) s = .next t ∧
      (∀ j, t.slot j = if j = 18 then 0x00#8 else s.slot j) ∧
      t = { s with slots := t.slots, bus := { s.bus with ptr := 0x1013#16 }, out := [.ack] }) ∧
    (∃ t, exec .shdnRequest s = .next t ∧
      (∀ j, t.slot j = if j = 16 then s.cfg.shdnSentinel else s.slot j) ∧
      t = { s with slots := t.slots, bus := { s.bus with ptr := 0x1011#16 }, out := [.ack] })

/-- The bits of the four layouts (30_encoding.md R99 to R102), read back from the slot bit by bit; every other bit of
STATUS and DIN is 0, every other bit of WK as given. The byte of VERSION is dropped, since nothing writes slot 1
(10_state.md R15). What a layout row does with its slot is assumption log 9. -/
def Obligations.FieldLayoutsBitByBit : Prop :=
  ∀ (a b c d : Bool) (r : BitVec 3) (y : Byte) (major minor : BitVec 4) (s : State), s.cfg.wf = true →
    (∃ t, exec (.statusFields a b r) s = .next t ∧ t = { s with slots := t.slots } ∧
      (∀ k, k ≠ 2 → t.slot k = s.slot k) ∧
      ∀ n < 8, (t.slot 2).getLsbD n =
        if n = s.cfg.stCritBit then a else if n = s.cfg.stShortBit then b
        else if s.cfg.stReasonLsb ≤ n ∧ n < s.cfg.stReasonLsb + 3 then r.getLsbD (n - s.cfg.stReasonLsb)
        else false) ∧
    (∃ t, exec (.dinFields a b c d) s = .next t ∧ t = { s with slots := t.slots } ∧
      (∀ k, k ≠ 3 → t.slot k = s.slot k) ∧
      ∀ n < 8, (t.slot 3).getLsbD n =
        if n = s.cfg.diCardBit then a else if n = s.cfg.diBtnBit then b
        else if n = s.cfg.diChgLsb + 1 then c else if n = s.cfg.diChgLsb then d else false) ∧
    (∃ t, exec (.wkFields a b c y) s = .next t ∧
      t = { s with slots := t.slots, bus := { s.bus with ptr := 0x1010#16 }, out := [.ack] } ∧
      (∀ k, k ≠ 15 → t.slot k = s.slot k) ∧
      ∀ n < 8, (t.slot 15).getLsbD n =
        if n = s.cfg.wkAlarmBit then a else if n = s.cfg.wkChgStartBit then b
        else if n = s.cfg.wkChgDoneBit then c else y.getLsbD n) ∧
    exec (.versionFields major minor) s = .next { s with bus := { s.bus with ptr := 0x1002#16 }, out := [.ack] } ∧
    (packVersion major minor).toNat = 16 * major.toNat + minor.toNat

/-- Write then read at one pointer (20_memory.md R73): the byte written is sent; a read-only slot sends what it would
have sent without the write; NVCTL sends the filtered byte. -/
def Obligations.WriteThenReadSamePointer : Prop :=
  ∀ (p : Half) (b : Byte) (s t u : State), exec (rowOfPointer p (.write b)) s = .next t →
    exec (rowOfPointer p .read) t = .next u →
    (p.toNat < 4096 ∨ (14 ≤ p.toNat % 32 ∧ p.toNat % 32 ≠ 18) → u.out = [.tx b]) ∧
    (4096 ≤ p.toNat → p.toNat % 32 = 18 →
      u.out = [.tx (if b = s.cfg.nvCmdCommit ∨ b = s.cfg.nvCmdReload then b else 0x00#8)]) ∧
    (4096 ≤ p.toNat → p.toNat % 32 < 14 → exec (rowOfPointer p .read) s = .next u)

/-- Aliasing (20_memory.md R60, R80): two pointers of the control region with the same low five bits are the same
location for every access; only the pointer left behind differs. -/
def Obligations.AliasesAreOneLocation : Prop :=
  ∀ (p q : Half) (acc : Access) (s t u : State), 4096 ≤ p.toNat → 4096 ≤ q.toNat → p.toNat % 32 = q.toNat % 32 →
    exec (rowOfPointer p acc) s = .next t → exec (rowOfPointer q acc) s = .next u →
    { t with bus := { t.bus with ptr := q } } = { u with bus := { u.bus with ptr := q } } ∧
    t.bus.ptr - p = u.bus.ptr - q

/-- The gate (20_memory.md R70, R71): while a transaction stays open, no step inside the block changes the measurement
latches (slots 4 to 13), the TIME, ALARM and CORR slots (19 to 30), slot 31, the pointer, the phase or the direction.
Nothing is said of STATUS, DIN, NVCTL and `mem`, which the block may change under an open transaction (20_memory.md
R76, 46_boundary_modules.md R305). -/
def Obligations.OpenTransactionFreezesFields : Prop :=
  ∀ (is : List Instr) (s u : State), (∀ i ∈ is, i.isInternalStep = true) → runs is s = some u →
    u.bus.inTransfer = true →
    (∀ k : Fin 32, (4 ≤ k.val ∧ k.val ≤ 13) ∨ 19 ≤ k.val → u.slot k = s.slot k) ∧
    u.bus.ptr = s.bus.ptr ∧ u.bus.phase = s.bus.phase ∧ u.bus.dir = s.bus.dir ∧ s.bus.inTransfer = true

/-- A read of a measurement, high byte then low byte of one transaction, sends the two halves of one result, whatever
steps of the block fall between the two fetches (20_memory.md R79). The high byte is fetched by the start of the read
(40_register_bus.md R133, the ordinary 16-bit read of 30_encoding.md R95) or by an acknowledge within it (R137), the
low byte by the next acknowledge; `q` is the pointer of the first fetch, which leaves `q + 1`. -/
def Obligations.MeasurementReadIsOneResult : Prop :=
  ∀ (is : List Instr) (j : Fin 5) (q : Half) (first : Instr) (s s' u u' : State), s.bus.mode = .active →
    first = .startR ∨ (first = .rdAck ∧ s.bus.phase = .data ∧ s.bus.dir = .r) →
    exec first s = .next s' → s'.bus.ptr = q + 1#16 → 4096 ≤ q.toNat → q.toNat % 32 = (highSlot j).val →
    (∀ i ∈ is, i.isInternalStep = true) → runs is s' = some u → u.bus.phase = .data → exec .rdAck u = .next u' →
    s'.out = (if first = .startR then [.ack, .tx (hiByte (resultAt s j))] else [.tx (hiByte (resultAt s j))]) ∧
    u'.out = [.tx (loByte (resultAt s j))]

/-! ## Composite operations of the host (30_encoding.md R110; uninterrupted: assumption log 10) -/

/-- `setptr`, `write8`, `write16`, `write32` and `nvwrite` (30_encoding.md R94, R110): the bytes are written one after
the other from the address on, most significant first, every byte is acknowledged, the pointer is left after the
last one and the transaction is closed. -/
def Obligations.HostWritesBytesInOrder : Prop :=
  ∀ (a h : Half) (b : Byte) (w : Word) (l d : List Byte) (i : Instr) (s : State), s.bus.mode = .active →
    (i, d) ∈ [(.setptr a, []), (.write8 a b, [b]), (.write16 a h, bytes16 h), (.write32 a w, bytes32 w),
      (.nvwrite a l, l)] →
    ∃ n, (s.bus.phase ≠ .addrLo → n = s.draws) ∧
      exec i s = .next { writeRun a d s with
        bus := { s.bus with
          dir := .w, phase := .idle, inTransfer := false, ack := false, addrHi := hiByte a
          ptr := a + BitVec.ofNat 16 d.length }
        draws := n
        out := List.replicate (3 + d.length) .ack }

/-- `read8`, `read16`, `read32` and `nvread` (30_encoding.md R95, R110): the bytes from the address on are fetched one
after the other with their side effects and sent, as many as asked for, and the transaction is closed. -/
def Obligations.HostReadsBytesInOrder : Prop :=
  ∀ (a : Half) (m n : Nat) (i : Instr) (s : State), s.bus.mode = .active → 1 ≤ m →
    (i, n) ∈ [(.read8 a, 1), (.read16 a, 2), (.read32 a, 4), (.nvread a m, m)] →
    ∃ t, exec i s = .next t ∧ t.sent = (readRun a n s).1 ∧ (s.bus.phase ≠ .addrLo → t.draws = s.draws) ∧
      t = { (readRun a n s).2 with
        bus := { s.bus with
          dir := .r, phase := .idle, inTransfer := false, ack := false, addrHi := hiByte a
          ptr := a + BitVec.ofNat 16 n }
        draws := t.draws
        out := t.out }

/-- Each of the two operations runs uninterrupted (assumption log 10): bytes written to the persistent region with
`nvwrite` are the bytes that `nvread` at the same address returns, and every other byte of `mem` is as before
(20_memory.md R73, 30_encoding.md R110). -/
def Obligations.PersistentWriteReadsBack : Prop :=
  ∀ (a : Half) (d : List Byte) (s : State), s.bus.mode = .active → d ≠ [] → a.toNat + d.length ≤ 4096 →
    ∃ t u, exec (.nvwrite a d) s = .next t ∧ exec (.nvread a d.length) t = .next u ∧ u.sent = d ∧
      (∀ x, Memory.read t.mem x =
        if h : a.toNat ≤ x ∧ x < a.toNat + d.length then d[x - a.toNat]'(by omega) else Memory.read s.mem x) ∧
      u.mem = t.mem ∧ u.slots = s.slots

/-! ## Scheduler, super-loop, watchdog, resets -/

/-- `TICK` (41_tick_scheduler.md R180 to R183, R185): the sub-tick counts modulo TICKS_PER_MS, the millisecond counter
advances where it wraps, each consumer is clocked where the sub-tick is its phase, its flag raised where its
down-counter is 0 (and kept where it was set), and the watchdog count saturates. -/
def Obligations.TickDecimatesFlags : Prop :=
  ∀ s : State, s.halted = false →
    ∃ t, exec .tick s = .next t ∧
      t.sched.sub = (s.sched.sub + 1) % s.cfg.ticksPerMs ∧
      t.sched.ms = (if t.sched.sub = 0 then s.sched.ms + 1#32 else s.sched.ms) ∧
      (∀ i, t.sched.flag.get i =
        (s.sched.flag.get i || decide (t.sched.sub = s.cfg.phase.get i ∧ s.sched.dec.get i = 0))) ∧
      (∀ i, t.sched.dec.get i =
        if t.sched.sub = s.cfg.phase.get i then
          (if s.sched.dec.get i = 0 then s.cfg.period.get i - 1 else s.sched.dec.get i - 1)
        else s.sched.dec.get i) ∧
      t.wdtCnt = min (s.wdtCnt + 1) s.cfg.wdtTicks ∧
      t = { s with sched := t.sched, wdtCnt := t.wdtCnt }

/-- One tick clocks at most one consumer and raises at most one flag (41_tick_scheduler.md R184). -/
def Obligations.TickClocksAtMostOneConsumer : Prop :=
  ∀ (s t : State) (i j : Consumer), s.cfg.wf = true → exec .tick s = .next t →
    (t.sched.flag.get i ≠ s.sched.flag.get i ∨ t.sched.dec.get i ≠ s.sched.dec.get i) →
    (t.sched.flag.get j ≠ s.sched.flag.get j ∨ t.sched.dec.get j ≠ s.sched.dec.get j) → i = j

/-- `LOOPSTEP` (41_tick_scheduler.md R186 to R188, R191): the watchdog is re-armed at the first position; a set flag
is cleared and its consumer's evaluation run in the same step, a clear one runs nothing; the position moves on; the
loop halts where the run state is Sleep. -/
def Obligations.LoopStepPollsOneFlag : Prop :=
  ∀ (p : Pins) (s : State), s.halted = false → s.loopHeld = false →
    (s.sched.flag.get s.loopPos = false →
      exec (.loopStep p) s = .next { s with
        wdtCnt := if s.loopPos = .ps then 0 else s.wdtCnt
        loopPos := s.loopPos.next
        halted := s.run == .sleep }) ∧
    (s.sched.flag.get s.loopPos = true →
      ∃ t, exec (evalRow s.loopPos p) { s with
          wdtCnt := if s.loopPos = .ps then 0 else s.wdtCnt
          sched := { s.sched with flag := s.sched.flag.set s.loopPos false } } = .next t ∧
        exec (.loopStep p) s = .next { t with loopPos := s.loopPos.next, halted := t.run == .sleep })

/-- The model's choice for an event that is not enabled or is held (assumption log 3): it changes nothing. Which
events are enabled when is 41_tick_scheduler.md R180, R186, R189, R192, 43_rtc.md R225, 45_power_sequencer.md
R283. -/
def Obligations.DisabledEventsChangeNothing : Prop :=
  ∀ (p : Pins) (s : State),
    (s.halted = true → exec .tick s = .next s ∧ exec (.loopStep p) s = .next s ∧ exec (.wdtExpire p) s = .next s) ∧
    (s.loopPos = .rtc → s.sched.flag.rtc = true → s.bus.inTransfer = true → exec (.loopStep p) s = .next s) ∧
    (s.bus.inTransfer = true → exec .evalRtc s = .next s) ∧
    (s.wdtCnt ≠ s.cfg.wdtTicks → exec (.wdtExpire p) s = .next s) ∧
    (s.halted = false → exec (.wakeup p) s = .next s)

/-- The watchdog (41_tick_scheduler.md R189, 70_reset_and_hazards.md R351): ticks with no re-arm between them bring its
count to WDT_TICKS and hold it there, and its expiry then resets the block as POWER_ON does, but for the seconds
counter, which is unspecified. -/
def Obligations.UnarmedWatchdogResetsBlock : Prop :=
  ∀ (p : Pins) (n : Nat) (s : State), s.halted = false → s.wdtCnt ≤ s.cfg.wdtTicks →
    s.cfg.wdtTicks ≤ s.wdtCnt + n →
    ∃ t u, runs (List.replicate n .tick) s = some t ∧ t.wdtCnt = s.cfg.wdtTicks ∧
      exec (.powerOn p) t = .next u ∧
      ∃ c d, exec (.wdtExpire p) t = .next { u with rtc := { u.rtc with count := c }, draws := d }

/-- `POWER_ON` (70_reset_and_hazards.md R350, R353): every piece of state takes the value of the listing, at any time;
the pointer is unspecified, `nv` is not touched. -/
def Obligations.PowerOnListing : Prop :=
  ∀ (p : Pins) (s : State), ∃ t, exec (.powerOn p) s = .next t ∧
    (∀ a, Memory.read t.mem a = if a < 1024 then Memory.read s.nv a else 0x00#8) ∧
    t.nv = s.nv ∧
    t.slot 0 = s.cfg.idValue ∧ t.slot 1 = s.cfg.versionMajor ++ s.cfg.versionMinor ∧ t.slot 2 = 0x00#8 ∧
    t.slot 3 = packDin s.cfg p.card p.btn p.chg1 p.chg0 ∧
    (∀ k : Fin 32, 4 ≤ k.val → k.val ≤ 13 → t.slot k = 0x00#8) ∧
    t.slot 14 = s.cfg.blDefault ∧ t.slot 15 = 0x00#8 ∧ t.slot 16 = 0x00#8 ∧ t.slot 17 = s.cfg.pressDefault ∧
    (∀ k : Fin 32, 18 ≤ k.val → t.slot k = 0x00#8) ∧
    t.timeCommit = false ∧ t.alarmCommit = false ∧ t.corrCommit = false ∧
    t.bus = { phase := .idle, ptr := t.bus.ptr, inTransfer := false, dir := .w, addrHi := 0x00#8, ack := false,
              mode := .disabled, hgRun := false } ∧
    t.rtc = { count := 0#32, alarm := 0#32, corr := 0#32, corrCnt := 0#32, alarmEn := false, corrEn := false,
              wkAlarmPrev := false } ∧
    t.alarmPending = false ∧ t.ps = { state := .idle, idx := 0 } ∧
    (∀ j : Fin 4, t.meas[j.val] = 0#16 ∧ t.filt.sum[j.val] = 0#32) ∧ t.temp = 0#16 ∧
    t.filt.tbuf = List.replicate s.cfg.tempDepth 0#16 ∧ t.filt.tsum = 0#32 ∧ t.filt.tpos = 0 ∧
    t.mainRail = false ∧ t.auxRail = true ∧ t.blOn = false ∧ t.critCnt = 0 ∧ t.halted = false ∧ t.run = .wake ∧
    (∀ i, t.sched.dec.get i = 0 ∧ t.sched.flag.get i = false) ∧ t.sched.sub = 0 ∧ t.sched.ms = 0#32 ∧
    t.loopPos = .ps ∧ t.wdtCnt = 0 ∧
    t.ind = { en := true, sel := .off, mode := .off, level := 0x00#8, cnt := 0 } ∧
    t.dio = { btn := ⟨p.btn, p.btn⟩, chg0 := ⟨p.chg0, p.chg0⟩, chg1 := ⟨p.chg1, p.chg1⟩, card := p.card
              btnLast := p.btn, pressCnt := if p.btn then s.cfg.longPressTicks else 0, shortLatched := false } ∧
    t.longPress = false

/-- `WAKEUP` and the Wake entry action (70_reset_and_hazards.md R352, R353, 42_digital_io.md R200): where the block is
halted it leaves Sleep for Wake; the I/O monitor, the indicator and the scheduler are initialised, the auxiliary
rail comes on, slot 3 is published, and everything else is kept. -/
def Obligations.WakeupRunsWakeEntry : Prop :=
  ∀ (p : Pins) (s : State), s.halted = true →
    ∃ t, exec (.wakeup p) s = .next t ∧
      (∀ k, t.slot k = if k = 3 then packDin s.cfg p.card p.btn p.chg1 p.chg0 else s.slot k) ∧
      t.dio.btn = ⟨p.btn, p.btn⟩ ∧ t.dio.chg0 = ⟨p.chg0, p.chg0⟩ ∧ t.dio.chg1 = ⟨p.chg1, p.chg1⟩ ∧
      t.dio.card = p.card ∧ t.dio.btnLast = p.btn ∧ t.dio.shortLatched = false ∧
      t.dio.pressCnt = (if p.btn then s.cfg.longPressTicks else 0) ∧
      (∀ i, t.sched.dec.get i = 0 ∧ t.sched.flag.get i = false) ∧ t.sched.sub = 0 ∧ t.sched.ms = 0#32 ∧
      t = { s with
        halted := false, run := .wake, slots := t.slots, dio := t.dio, longPress := false
        ind := { en := true, sel := .off, mode := .off, level := 0x00#8, cnt := 0 }
        sched := t.sched, loopPos := .ps, wdtCnt := 0, auxRail := true }

/-! ## Digital inputs -/

/-- `EVAL_DIO`, debounce and snapshot (42_digital_io.md R201 to R203, R209): a line's accepted level follows the sample
where two consecutive samples agree and is kept otherwise; the card line is taken raw; slot 3 is the packed
snapshot; the evaluation changes the monitor's state, the long-press flag and slots 2 and 3 and nothing else. -/
def Obligations.DebounceNeedsTwoSamples : Prop :=
  ∀ (p : Pins) (s : State), ∃ t, exec (.evalDio p) s = .next t ∧
    t.dio.btn = ⟨p.btn, if p.btn = s.dio.btn.prev then p.btn else s.dio.btn.deb⟩ ∧
    t.dio.chg0 = ⟨p.chg0, if p.chg0 = s.dio.chg0.prev then p.chg0 else s.dio.chg0.deb⟩ ∧
    t.dio.chg1 = ⟨p.chg1, if p.chg1 = s.dio.chg1.prev then p.chg1 else s.dio.chg1.deb⟩ ∧
    t.dio.card = p.card ∧ t.dio.btnLast = t.dio.btn.deb ∧
    t.slot 3 = packDin s.cfg t.dio.card t.dio.btn.deb t.dio.chg1.deb t.dio.chg0.deb ∧
    (∀ k, k ≠ 2 → k ≠ 3 → t.slot k = s.slot k) ∧
    t = { s with slots := t.slots, dio := t.dio, longPress := t.longPress }

/-- `EVAL_DIO`, press timing (42_digital_io.md R204 to R207): a down event loads the counter; a held button counts it
down and the decrement to 0 raises the long-press flag; the first evaluation at which the time down reaches PRESS
sets STATUS.short, once a press. -/
def Obligations.PressTimingRule : Prop :=
  ∀ (p : Pins) (s : State), ∃ t, exec (.evalDio p) s = .next t ∧
    (s.dio.btnLast = false → t.dio.btn.deb = true →
      t.dio.pressCnt = s.cfg.longPressTicks ∧ t.longPress = s.longPress ∧
      t.dio.shortLatched = decide (s.slot 17 = 0x00#8)) ∧
    (s.dio.btnLast = true → t.dio.btn.deb = true →
      t.dio.pressCnt = s.dio.pressCnt - 1 ∧ t.longPress = (s.longPress || s.dio.pressCnt == 1) ∧
      t.dio.shortLatched = (s.dio.shortLatched ||
        decide ((s.slot 17).toNat ≤ s.cfg.longPressTicks - (s.dio.pressCnt - 1)))) ∧
    (t.dio.btn.deb = false →
      t.dio.pressCnt = s.dio.pressCnt ∧ t.longPress = s.longPress ∧ t.dio.shortLatched = s.dio.shortLatched) ∧
    ∀ n < 8, (t.slot 2).getLsbD n =
      if n = s.cfg.stShortBit ∧ t.dio.shortLatched = true ∧
          (s.dio.shortLatched = false ∨ (s.dio.btnLast = false ∧ t.dio.btn.deb = true))
      then true else (s.slot 2).getLsbD n

/-- A button held for LONG_PRESS_TICKS evaluations after its down event raises the long-press flag at the last of
them and not before, whatever the other lines do (42_digital_io.md R206). -/
def Obligations.LongPressAfterThreshold : Prop :=
  ∀ (ps : List Pins) (s : State), s.cfg.wf = true → (∀ p ∈ ps, p.btn = true) → s.dio.btn = ⟨true, true⟩ →
    s.dio.btnLast = true → s.dio.pressCnt = s.cfg.longPressTicks → s.longPress = false →
    ps.length ≤ s.cfg.longPressTicks →
    ∃ t, runs (ps.map .evalDio) s = some t ∧ t.longPress = decide (ps.length = s.cfg.longPressTicks) ∧
      t.dio.pressCnt = s.cfg.longPressTicks - ps.length

/-! ## The clock -/

/-- `SECOND` (43_rtc.md R220 to R223): the counter advances; with correction enabled the signed correction counter
moves one toward zero, and at zero the seconds counter is nudged and the correction counter reloaded; the alarm
compares for equality after that and disarms itself. Nothing but the clock and the alarm flag changes. -/
def Obligations.SecondAdvancesClock : Prop :=
  ∀ s : State, ∃ t, exec .second s = .next t ∧
    (s.rtc.corrEn = false → t.rtc.count = s.rtc.count + 1#32 ∧ t.rtc.corrCnt = s.rtc.corrCnt) ∧
    (s.rtc.corrEn = true → s.rtc.corrCnt.toInt.natAbs ≤ 1 →
      t.rtc.corrCnt = s.rtc.corr ∧
      t.rtc.count =
        if decide (0 < s.rtc.corr.toInt) = s.cfg.corrPosAdds then s.rtc.count + 2#32 else s.rtc.count) ∧
    (s.rtc.corrEn = true → 1 < s.rtc.corrCnt.toInt.natAbs →
      t.rtc.corrCnt.toInt = s.rtc.corrCnt.toInt - s.rtc.corrCnt.toInt.sign ∧
      t.rtc.count = s.rtc.count + 1#32) ∧
    t.alarmPending = (s.alarmPending || (s.rtc.alarmEn && t.rtc.count == s.rtc.alarm)) ∧
    t.rtc.alarmEn = (s.rtc.alarmEn && t.rtc.count != s.rtc.alarm) ∧
    t = { s with
      rtc := { s.rtc with count := t.rtc.count, corrCnt := t.rtc.corrCnt, alarmEn := t.rtc.alarmEn }
      alarmPending := t.alarmPending }

/-- One correction period (43_rtc.md R222, R231): from a correction counter equal to a correction `c` that is not 0,
the `|c|`-th second is the one that nudges, by one second in the configured direction, and reloads the counter; this
holds for the most negative value as well. -/
def Obligations.CorrectionNudgesOncePerPeriod : Prop :=
  ∀ (s : State) (n : Nat), s.rtc.corrEn = true → s.rtc.corr ≠ 0#32 → s.rtc.corrCnt = s.rtc.corr →
    n = s.rtc.corr.toInt.natAbs →
    ∃ t u, runs (List.replicate (n - 1) .second) s = some t ∧ exec .second t = .next u ∧
      t.rtc.count = s.rtc.count + BitVec.ofNat 32 (n - 1) ∧
      u.rtc.count = (if decide (0 < s.rtc.corr.toInt) = s.cfg.corrPosAdds
        then s.rtc.count + BitVec.ofNat 32 n + 1#32 else s.rtc.count + BitVec.ofNat 32 n - 1#32) ∧
      u.rtc.corrCnt = s.rtc.corr

/-- `EVAL_RTC` (43_rtc.md R225 to R230): where it is not held, each commit flag that is set loads its field and is
cleared, the alarm bit's transitions arm and disarm, and the TIME slots are overwritten with the counter; the ALARM
and CORR slots are not written back. -/
def Obligations.ClockEvaluationCommitsAndPublishes : Prop :=
  ∀ s : State, s.bus.inTransfer = false → ∃ t, exec .evalRtc s = .next t ∧
    t.rtc.count = (if s.timeCommit then s.be32 19 else s.rtc.count) ∧
    t.rtc.alarm = (if s.alarmCommit then s.be32 23 else s.rtc.alarm) ∧
    t.rtc.corr = (if s.corrCommit then s.be32 27 else s.rtc.corr) ∧
    t.rtc.corrCnt = (if s.corrCommit then s.be32 27 else s.rtc.corrCnt) ∧
    t.rtc.corrEn = (if s.corrCommit then s.be32 27 != 0#32 else s.rtc.corrEn) ∧
    t.rtc.alarmEn =
      (if (s.slot 15).getLsbD s.cfg.wkAlarmBit = s.rtc.wkAlarmPrev then s.rtc.alarmEn
        else (s.slot 15).getLsbD s.cfg.wkAlarmBit) ∧
    t.rtc.wkAlarmPrev = (s.slot 15).getLsbD s.cfg.wkAlarmBit ∧
    t.be32 19 = t.rtc.count ∧
    (∀ k : Fin 32, k.val < 19 ∨ 22 < k.val → t.slot k = s.slot k) ∧
    t = { s with slots := t.slots, rtc := t.rtc, timeCommit := false, alarmCommit := false, corrCommit := false }

/-- Setting the time (43_rtc.md R226, R233): a 32-bit write to TIME and the next clock evaluation load the counter with
the value written and publish it, and each second after that adds one while no correction is enabled. The write runs
with no other agent's step between its events (assumption log 10), the evaluation by itself (log 6). -/
def Obligations.TimeRoundTrip : Prop :=
  ∀ (v : Word) (n : Nat) (s : State), s.bus.mode = .active → s.rtc.corrEn = false → s.corrCommit = false →
    ∃ t u w, exec (.write32 0x1013#16 v) s = .next t ∧ exec .evalRtc t = .next u ∧
      u.rtc.count = v ∧ u.be32 19 = v ∧ u.timeCommit = false ∧
      runs (List.replicate n .second) u = some w ∧ w.rtc.count = v + BitVec.ofNat 32 n

/-! ## The indicator -/

/-- `EVAL_IND` (44_indicator.md R243 to R251): disabled it does nothing; a new charge state selects the start of its
animation; otherwise one step, the pulse saturating at its extremes and reversing there, the blink toggling when its
counter runs out. The pulse clauses are on integers. The pairing of charge states and animations is the spec's own
decision on general knowledge (assumption log 30). -/
def Obligations.IndicatorEvaluation : Prop :=
  ∀ s : State,
    (s.ind.en = false → exec .evalInd s = .next s) ∧
    ∃ t, exec .evalInd s = .next t ∧ t = { s with ind := t.ind } ∧
      (s.ind.en = true → s.chgState ≠ s.ind.sel → t.ind.en = true ∧ t.ind.sel = s.chgState ∧
        (s.chgState = .off → t.ind.mode = .off ∧ t.ind.level = 0x00#8 ∧ t.ind.cnt = s.ind.cnt) ∧
        (s.chgState = .charging → t.ind.mode = .fadeUp ∧ t.ind.level = s.cfg.indMin ∧ t.ind.cnt = s.ind.cnt) ∧
        (s.chgState = .complete → t.ind.mode = .solid ∧ t.ind.level = s.cfg.indMax ∧ t.ind.cnt = s.ind.cnt) ∧
        (s.chgState = .fault →
          t.ind.mode = .blinkOn ∧ t.ind.level = s.cfg.indMax ∧ t.ind.cnt = s.cfg.blinkHalf)) ∧
      (s.ind.en = true → s.chgState = s.ind.sel → t.ind.en = true ∧ t.ind.sel = s.ind.sel ∧
        (s.ind.mode = .off ∨ s.ind.mode = .solid → t.ind = s.ind) ∧
        (s.ind.mode = .fadeUp →
          t.ind.level.toNat = min (s.ind.level.toNat + s.cfg.indStep) s.cfg.indMax.toNat ∧ t.ind.cnt = s.ind.cnt ∧
          t.ind.mode = if t.ind.level = s.cfg.indMax then .fadeDown else .fadeUp) ∧
        (s.ind.mode = .fadeDown →
          (t.ind.level.toNat : Int) = max ((s.ind.level.toNat : Int) - s.cfg.indStep) s.cfg.indMin.toNat ∧
          t.ind.cnt = s.ind.cnt ∧
          t.ind.mode = if t.ind.level = s.cfg.indMin then .fadeUp else .fadeDown) ∧
        (s.ind.mode = .blinkOn ∨ s.ind.mode = .blinkOff → 1 < s.ind.cnt →
          t.ind = { s.ind with cnt := s.ind.cnt - 1 }) ∧
        (s.ind.mode = .blinkOn → s.ind.cnt = 1 →
          t.ind = { s.ind with mode := .blinkOff, level := s.cfg.indMin, cnt := s.cfg.blinkHalf }) ∧
        (s.ind.mode = .blinkOff → s.ind.cnt = 1 →
          t.ind = { s.ind with mode := .blinkOn, level := s.cfg.indMax, cnt := s.cfg.blinkHalf }))

/-! ## The persistent store and the sampler -/

/-- `EVAL_PS` (46_boundary_modules.md R300 to R303): a batch of a write-back, the start of a commit, a reload, or
nothing. -/
def Obligations.PersistentStoreEvaluation : Prop :=
  ∀ s : State, s.cfg.wf = true → s.ps.idx ≤ 1024 →
    (s.ps.state = .writing → ∃ t n, n = min s.cfg.nvBatch (1024 - s.ps.idx) ∧ exec .evalPs s = .next t ∧
      (∀ a, Memory.read t.nv a =
        if s.ps.idx ≤ a ∧ a < s.ps.idx + n then Memory.read s.mem a else Memory.read s.nv a) ∧
      t.ps.idx = s.ps.idx + n ∧ t.ps.state = (if s.ps.idx + n = 1024 then .idle else .writing) ∧
      (∀ k, t.slot k =
        if k = 18 ∧ s.ps.idx + n = 1024 ∧ s.slot 18 = Config.nvBusy then Config.nvIdle else s.slot k) ∧
      t = { s with nv := t.nv, ps := t.ps, slots := t.slots }) ∧
    (s.ps.state = .idle → s.slot 18 = s.cfg.nvCmdCommit → ∃ t, exec .evalPs s = .next t ∧
      (∀ a < 1024, Memory.read t.nv a = s.cfg.nvErased) ∧
      (∀ k, t.slot k = if k = 18 then Config.nvBusy else s.slot k) ∧
      t = { s with nv := t.nv, ps := { state := .writing, idx := 0 }, slots := t.slots }) ∧
    (s.ps.state = .idle → s.slot 18 = s.cfg.nvCmdReload → ∃ t, exec .evalPs s = .next t ∧
      (∀ a, Memory.read t.mem a = if a < 1024 then Memory.read s.nv a else Memory.read s.mem a) ∧
      (∀ k, t.slot k = if k = 18 then Config.nvIdle else s.slot k) ∧
      t = { s with mem := t.mem, slots := t.slots }) ∧
    (s.ps.state = .idle → s.slot 18 ≠ s.cfg.nvCmdCommit → s.slot 18 ≠ s.cfg.nvCmdReload →
      exec .evalPs s = .next s)

/-- A commit completes (46_boundary_modules.md R301, R302): the evaluation that starts it and `ceil(1024 / NV_BATCH)`
more, with no host write between them, leave `nv` the mirror of the first 1024 bytes of `mem`, the transaction Idle
and NVCTL reading idle, and not one evaluation sooner. -/
def Obligations.CommitCopiesWholeMirror : Prop :=
  ∀ (s : State) (n : Nat), s.cfg.wf = true → s.ps.state = .idle → s.slot 18 = s.cfg.nvCmdCommit →
    n = (1024 + s.cfg.nvBatch - 1) / s.cfg.nvBatch →
    ∃ t u, runs (List.replicate n .evalPs) s = some t ∧ t.ps.state = .writing ∧ t.slot 18 = Config.nvBusy ∧
      exec .evalPs t = .next u ∧ u.ps.state = .idle ∧ u.slot 18 = Config.nvIdle ∧
      (∀ a < 1024, Memory.read u.nv a = Memory.read s.mem a) ∧ u.mem = s.mem

/-- `nv` changes only in the persistent store's evaluation (20_memory.md R77, 10_state.md R12): every other instruction,
every reset among them, leaves it as it was. -/
def Obligations.OnlyTheStoreWritesNv : Prop :=
  ∀ (i : Instr) (s t : State), exec i s = .next t →
    t.nv = s.nv ∨ i = .evalPs ∨
      (∃ p, i = .loopStep p ∧ s.loopPos = .ps ∧ s.sched.flag.ps = true ∧ s.halted = false)

/-- `SAMPLE` (46_boundary_modules.md R308 to R311): the smoothing accumulator never wraps where it starts below 2^31
and its published value is the calibration of its integer quotient; the temperature's buffer takes the new value in
the place of the oldest and publishes the calibration of the rounded average. No slot changes. The average's
numerator is not wrapped to 32 bits (assumption log 25); the calibration is the configuration's, with a 32-bit
argument (log 19). -/
def Obligations.SampleFiltersAndPublishes : Prop :=
  ∀ (s : State) (v : Half), s.cfg.wf = true →
    (∀ j : Fin 4, s.filt.sum[j.val].toNat < 2 ^ 31 → ∃ t n, exec (.sample (.analog j) v) s = .next t ∧
      n = s.filt.sum[j.val].toNat - s.filt.sum[j.val].toNat / 2 ^ s.cfg.emaK[j.val] + v.toNat ∧
      t.filt.sum[j.val].toNat = n ∧ n < 2 ^ 31 ∧
      t.meas[j.val] = calibrate s.cfg j.castSucc (BitVec.ofNat 32 (n / 2 ^ s.cfg.emaK[j.val])) ∧
      (∀ m : Fin 4, m ≠ j → t.filt.sum[m.val] = s.filt.sum[m.val] ∧ t.meas[m.val] = s.meas[m.val]) ∧
      t = { s with filt := { s.filt with sum := t.filt.sum }, meas := t.meas }) ∧
    ∃ t, exec (.sample .temperature v) s = .next t ∧
      t.filt.tsum = s.filt.tsum - (s.filt.tbuf.getD s.filt.tpos 0#16).zeroExtend 32 + v.zeroExtend 32 ∧
      (∀ k, t.filt.tbuf[k]? = if k = s.filt.tpos ∧ k < s.filt.tbuf.length then some v else s.filt.tbuf[k]?) ∧
      t.filt.tpos = (s.filt.tpos + 1) % s.cfg.tempDepth ∧
      t.temp = calibrate s.cfg 4
        (BitVec.ofNat 32 ((t.filt.tsum.toNat + s.cfg.tempDepth / 2) / s.cfg.tempDepth)) ∧
      t = { s with
        filt := { s.filt with tsum := t.filt.tsum, tbuf := t.filt.tbuf, tpos := t.filt.tpos }, temp := t.temp }

/-! ## The sequencer -/

/-- `EVAL_RUN` follows the transition table (45_power_sequencer.md R270 to R274, R276, R278, R282): at most one
transition, the long-press flag always consumed, and nothing changed but what the sequencer owns. -/
def Obligations.SequencerFollowsTable : Prop :=
  ∀ s : State, ∃ t, exec .evalRun s = .next t ∧ t.run = nextRun s ∧ t.longPress = false ∧
    (∀ k, k ≠ 2 → k ≠ 16 → t.slot k = s.slot k) ∧
    t.slot 16 = (if s.run = .power ∧ s.longPress = false ∧ s.slot 16 = s.cfg.shdnSentinel then 0x00#8
      else s.slot 16) ∧
    t = { s with
      slots := t.slots, bus := t.bus, draws := t.draws, longPress := false, alarmPending := t.alarmPending
      ind := t.ind, run := t.run, mainRail := t.mainRail, auxRail := t.auxRail, blOn := t.blOn
      critCnt := t.critCnt }

/-- The entry actions (45_power_sequencer.md R264 to R268): what a transition of `EVAL_RUN` does to the rails, the
backlight gate, the whole bus state, the indicator, the alarm and the critical-battery counter, by the state entered
(the reason in STATUS: EntryToPowerReportsReason); without a transition none of them changes but the counter. The
pointer is kept, but for a transaction with one address byte, where it is unspecified (40_register_bus.md R145,
R147). The counter and STATUS change in Power without a long press, and on entry to Power, only (R272, R277). -/
def Obligations.TransitionsRunEntryActions : Prop :=
  ∀ s t : State, exec .evalRun s = .next t →
    (t.run = s.run → t.mainRail = s.mainRail ∧ t.auxRail = s.auxRail ∧ t.blOn = s.blOn ∧ t.bus = s.bus ∧
      t.ind = s.ind ∧ t.alarmPending = s.alarmPending ∧ t.draws = s.draws) ∧
    (t.run ≠ s.run → t.run = .charge → t.mainRail = false ∧ t.auxRail = s.auxRail ∧ t.blOn = false ∧
      t.ind = s.ind ∧ t.alarmPending = s.alarmPending ∧ (s.bus.phase ≠ .addrLo → t.draws = s.draws) ∧
      ∃ q, (s.bus.phase ≠ .addrLo → q = s.bus.ptr) ∧
        t.bus = { s.bus with
          mode := .suspended, hgRun := false, ack := false, phase := .idle, inTransfer := false, ptr := q }) ∧
    (t.run ≠ s.run → t.run = .wait → t.mainRail = true ∧ t.auxRail = s.auxRail ∧ t.blOn = true ∧ t.bus = s.bus ∧
      t.ind = s.ind ∧ t.alarmPending = s.alarmPending ∧ t.draws = s.draws) ∧
    (t.run ≠ s.run → t.run = .power → t.mainRail = true ∧ t.auxRail = s.auxRail ∧ t.blOn = true ∧
      t.bus = { s.bus with phase := .idle, inTransfer := false, ack := false, hgRun := true, mode := .active } ∧
      t.critCnt = 0 ∧ t.ind = s.ind ∧ t.draws = s.draws) ∧
    (t.run ≠ s.run → t.run = .powerOff → t.mainRail = false ∧ t.auxRail = s.auxRail ∧ t.blOn = false ∧
      t.bus = s.bus ∧ t.ind = s.ind ∧ t.alarmPending = s.alarmPending ∧ t.draws = s.draws) ∧
    (t.run ≠ s.run → t.run = .sleep → t.mainRail = false ∧ t.auxRail = false ∧ t.blOn = false ∧
      t.ind = { s.ind with en := false } ∧ t.alarmPending = false ∧ (s.bus.phase ≠ .addrLo → t.draws = s.draws) ∧
      ∃ q, (s.bus.phase ≠ .addrLo → q = s.bus.ptr) ∧
        t.bus = { s.bus with
          mode := .disabled, hgRun := false, ack := false, phase := .idle, inTransfer := false, ptr := q }) ∧
    (s.run ≠ .power → t.run ≠ .power → t.critCnt = s.critCnt ∧ t.slot 2 = s.slot 2) ∧
    (s.run = .power → s.longPress = true → t.critCnt = s.critCnt ∧ t.slot 2 = s.slot 2)

/-- The power-on reason and the alarm (45_power_sequencer.md R275, R281): every entry to Power writes the reason of the
transition taken, alarm before charge before button, and keeps the other bits of STATUS; the transition that leaves
Wake or Charge for Power clears the alarm. -/
def Obligations.EntryToPowerReportsReason : Prop :=
  ∀ s t : State, s.cfg.wf = true → exec .evalRun s = .next t → s.run ≠ .power → t.run = .power →
    t.statusReason =
      (if s.run = .wait then s.cfg.reasonButton
       else if s.alarmPending then s.cfg.reasonAlarm
       else if s.run = .wake ∨ s.chargeDoneWake = true then s.cfg.reasonCharge
       else s.cfg.reasonButton) ∧
    t.statusCrit = s.statusCrit ∧ t.statusShort = s.statusShort ∧
    t.alarmPending = (if s.run = .wait then s.alarmPending else false)

/-- The critical battery (45_power_sequencer.md R277, R272): in Power, with no long press, an evaluation below the
threshold counts, raises the status bit from CRIT_TIMEOUT on and forces the exit at CRIT_TIMEOUT + CRIT_GRACE and not
before; one at or above it clears the count and the bit. The exit and the shutdown request go to Charge with external
power and to Sleep without. -/
def Obligations.CriticalBatteryForcesExit : Prop :=
  ∀ s : State, s.cfg.wf = true → s.run = .power → s.longPress = false →
    s.critCnt ≤ s.cfg.critTimeout + s.cfg.critGrace →
    ∃ t n, exec .evalRun s = .next t ∧ n = min (s.critCnt + 1) (s.cfg.critTimeout + s.cfg.critGrace) ∧
      (s.meas[s.cfg.vbatCh.val].toNat < s.cfg.vbatCrit.toNat →
        t.critCnt = n ∧ t.statusCrit = (s.statusCrit || decide (s.cfg.critTimeout ≤ n)) ∧
        (n = s.cfg.critTimeout + s.cfg.critGrace → t.run = if s.chgState = .off then .sleep else .charge) ∧
        (n < s.cfg.critTimeout + s.cfg.critGrace → s.slot 16 ≠ s.cfg.shdnSentinel → t.run = .power)) ∧
      (s.cfg.vbatCrit.toNat ≤ s.meas[s.cfg.vbatCh.val].toNat →
        t.critCnt = 0 ∧ t.statusCrit = false ∧ (s.slot 16 ≠ s.cfg.shdnSentinel → t.run = .power)) ∧
      (s.slot 16 = s.cfg.shdnSentinel → t.slot 16 = 0x00#8 ∧ t.run = if s.chgState = .off then .sleep else .charge) ∧
      t.statusReason = s.statusReason ∧ t.statusShort = s.statusShort

/-- Only the sequencer, with its lifecycle operations, and the resets switch the rails, the backlight gate and the bus
mode (45_power_sequencer.md R280). -/
def Obligations.OnlySequencerSwitchesRails : Prop :=
  ∀ (i : Instr) (s t : State), exec i s = .next t →
    (t.mainRail = s.mainRail ∧ t.auxRail = s.auxRail ∧ t.blOn = s.blOn ∧ t.bus.mode = s.bus.mode ∧
      t.bus.hgRun = s.bus.hgRun ∧ t.run = s.run) ∨
    i = .evalRun ∨ i = .suspend ∨ i = .resume ∨ i = .shutdown ∨
    (∃ p, i = .loopStep p ∧ s.loopPos = .run ∧ s.sched.flag.run = true) ∨
    (∃ p, i = .powerOn p ∨ i = .wdtExpire p ∨ i = .wakeup p)

/-! ## Identity and version -/

/-- Nothing writes `ID` and `VERSION` (10_state.md R14, R15): every instruction leaves slots 0 and 1 as they were, host
writes and layout rows among them, but for the two resets, which leave them the identity constant and the packed
version, major in bits 7:4. -/
def Obligations.IdentityAndVersionAreConstant : Prop :=
  ∀ (i : Instr) (s t : State), exec i s = .next t →
    (t.slot 0 = s.slot 0 ∧ t.slot 1 = s.slot 1) ∨
    ((∃ p, i = .powerOn p ∨ i = .wdtExpire p) ∧ t.slot 0 = s.cfg.idValue ∧
      (t.slot 1).toNat = 16 * s.cfg.versionMajor.toNat + s.cfg.versionMinor.toNat)

end Slice0
end

