-- ==== Sys2Proof/Laws/State.lean ====
section
/-! SUPPORT. The small lemmas of the state's named updates: one for each field, true by rfl. -/

namespace Sys2Proof.Machine

variable (s : State)

/-! ## `setSlot` -/

@[simp] theorem setSlot_cfg (k : Fin 32) (b : Byte) : (s.setSlot k b).cfg = s.cfg := rfl
@[simp] theorem setSlot_inbox (k : Fin 32) (b : Byte) : (s.setSlot k b).inbox = s.inbox := rfl
@[simp] theorem setSlot_out (k : Fin 32) (b : Byte) : (s.setSlot k b).out = s.out := rfl
@[simp] theorem setSlot_draws (k : Fin 32) (b : Byte) : (s.setSlot k b).draws = s.draws := rfl
@[simp] theorem setSlot_mem (k : Fin 32) (b : Byte) : (s.setSlot k b).mem = s.mem := rfl
@[simp] theorem setSlot_nv (k : Fin 32) (b : Byte) : (s.setSlot k b).nv = s.nv := rfl
@[simp] theorem setSlot_timeCommit (k : Fin 32) (b : Byte) : (s.setSlot k b).timeCommit = s.timeCommit := rfl
@[simp] theorem setSlot_alarmCommit (k : Fin 32) (b : Byte) : (s.setSlot k b).alarmCommit = s.alarmCommit := rfl
@[simp] theorem setSlot_corrCommit (k : Fin 32) (b : Byte) : (s.setSlot k b).corrCommit = s.corrCommit := rfl
@[simp] theorem setSlot_bus (k : Fin 32) (b : Byte) : (s.setSlot k b).bus = s.bus := rfl
@[simp] theorem setSlot_sched (k : Fin 32) (b : Byte) : (s.setSlot k b).sched = s.sched := rfl
@[simp] theorem setSlot_wdtCnt (k : Fin 32) (b : Byte) : (s.setSlot k b).wdtCnt = s.wdtCnt := rfl
@[simp] theorem setSlot_loopPos (k : Fin 32) (b : Byte) : (s.setSlot k b).loopPos = s.loopPos := rfl
@[simp] theorem setSlot_dio (k : Fin 32) (b : Byte) : (s.setSlot k b).dio = s.dio := rfl
@[simp] theorem setSlot_longPress (k : Fin 32) (b : Byte) : (s.setSlot k b).longPress = s.longPress := rfl
@[simp] theorem setSlot_rtc (k : Fin 32) (b : Byte) : (s.setSlot k b).rtc = s.rtc := rfl
@[simp] theorem setSlot_alarmPending (k : Fin 32) (b : Byte) : (s.setSlot k b).alarmPending = s.alarmPending := rfl
@[simp] theorem setSlot_ind (k : Fin 32) (b : Byte) : (s.setSlot k b).ind = s.ind := rfl
@[simp] theorem setSlot_run (k : Fin 32) (b : Byte) : (s.setSlot k b).run = s.run := rfl
@[simp] theorem setSlot_mainRail (k : Fin 32) (b : Byte) : (s.setSlot k b).mainRail = s.mainRail := rfl
@[simp] theorem setSlot_auxRail (k : Fin 32) (b : Byte) : (s.setSlot k b).auxRail = s.auxRail := rfl
@[simp] theorem setSlot_blOn (k : Fin 32) (b : Byte) : (s.setSlot k b).blOn = s.blOn := rfl
@[simp] theorem setSlot_critCnt (k : Fin 32) (b : Byte) : (s.setSlot k b).critCnt = s.critCnt := rfl
@[simp] theorem setSlot_halted (k : Fin 32) (b : Byte) : (s.setSlot k b).halted = s.halted := rfl
@[simp] theorem setSlot_ps (k : Fin 32) (b : Byte) : (s.setSlot k b).ps = s.ps := rfl
@[simp] theorem setSlot_meas (k : Fin 32) (b : Byte) : (s.setSlot k b).meas = s.meas := rfl
@[simp] theorem setSlot_temp (k : Fin 32) (b : Byte) : (s.setSlot k b).temp = s.temp := rfl
@[simp] theorem setSlot_filt (k : Fin 32) (b : Byte) : (s.setSlot k b).filt = s.filt := rfl

/-! ## `setPtr` -/

@[simp] theorem setPtr_cfg (p : Half) : (s.setPtr p).cfg = s.cfg := rfl
@[simp] theorem setPtr_inbox (p : Half) : (s.setPtr p).inbox = s.inbox := rfl
@[simp] theorem setPtr_out (p : Half) : (s.setPtr p).out = s.out := rfl
@[simp] theorem setPtr_draws (p : Half) : (s.setPtr p).draws = s.draws := rfl
@[simp] theorem setPtr_mem (p : Half) : (s.setPtr p).mem = s.mem := rfl
@[simp] theorem setPtr_nv (p : Half) : (s.setPtr p).nv = s.nv := rfl
@[simp] theorem setPtr_slots (p : Half) : (s.setPtr p).slots = s.slots := rfl
@[simp] theorem setPtr_timeCommit (p : Half) : (s.setPtr p).timeCommit = s.timeCommit := rfl
@[simp] theorem setPtr_alarmCommit (p : Half) : (s.setPtr p).alarmCommit = s.alarmCommit := rfl
@[simp] theorem setPtr_corrCommit (p : Half) : (s.setPtr p).corrCommit = s.corrCommit := rfl
@[simp] theorem setPtr_sched (p : Half) : (s.setPtr p).sched = s.sched := rfl
@[simp] theorem setPtr_wdtCnt (p : Half) : (s.setPtr p).wdtCnt = s.wdtCnt := rfl
@[simp] theorem setPtr_loopPos (p : Half) : (s.setPtr p).loopPos = s.loopPos := rfl
@[simp] theorem setPtr_dio (p : Half) : (s.setPtr p).dio = s.dio := rfl
@[simp] theorem setPtr_longPress (p : Half) : (s.setPtr p).longPress = s.longPress := rfl
@[simp] theorem setPtr_rtc (p : Half) : (s.setPtr p).rtc = s.rtc := rfl
@[simp] theorem setPtr_alarmPending (p : Half) : (s.setPtr p).alarmPending = s.alarmPending := rfl
@[simp] theorem setPtr_ind (p : Half) : (s.setPtr p).ind = s.ind := rfl
@[simp] theorem setPtr_run (p : Half) : (s.setPtr p).run = s.run := rfl
@[simp] theorem setPtr_mainRail (p : Half) : (s.setPtr p).mainRail = s.mainRail := rfl
@[simp] theorem setPtr_auxRail (p : Half) : (s.setPtr p).auxRail = s.auxRail := rfl
@[simp] theorem setPtr_blOn (p : Half) : (s.setPtr p).blOn = s.blOn := rfl
@[simp] theorem setPtr_critCnt (p : Half) : (s.setPtr p).critCnt = s.critCnt := rfl
@[simp] theorem setPtr_halted (p : Half) : (s.setPtr p).halted = s.halted := rfl
@[simp] theorem setPtr_ps (p : Half) : (s.setPtr p).ps = s.ps := rfl
@[simp] theorem setPtr_meas (p : Half) : (s.setPtr p).meas = s.meas := rfl
@[simp] theorem setPtr_temp (p : Half) : (s.setPtr p).temp = s.temp := rfl
@[simp] theorem setPtr_filt (p : Half) : (s.setPtr p).filt = s.filt := rfl

/-! ## `respond` -/

@[simp] theorem respond_cfg (r : List Resp) : (s.respond r).cfg = s.cfg := rfl
@[simp] theorem respond_inbox (r : List Resp) : (s.respond r).inbox = s.inbox := rfl
@[simp] theorem respond_draws (r : List Resp) : (s.respond r).draws = s.draws := rfl
@[simp] theorem respond_mem (r : List Resp) : (s.respond r).mem = s.mem := rfl
@[simp] theorem respond_nv (r : List Resp) : (s.respond r).nv = s.nv := rfl
@[simp] theorem respond_slots (r : List Resp) : (s.respond r).slots = s.slots := rfl
@[simp] theorem respond_timeCommit (r : List Resp) : (s.respond r).timeCommit = s.timeCommit := rfl
@[simp] theorem respond_alarmCommit (r : List Resp) : (s.respond r).alarmCommit = s.alarmCommit := rfl
@[simp] theorem respond_corrCommit (r : List Resp) : (s.respond r).corrCommit = s.corrCommit := rfl
@[simp] theorem respond_bus (r : List Resp) : (s.respond r).bus = s.bus := rfl
@[simp] theorem respond_sched (r : List Resp) : (s.respond r).sched = s.sched := rfl
@[simp] theorem respond_wdtCnt (r : List Resp) : (s.respond r).wdtCnt = s.wdtCnt := rfl
@[simp] theorem respond_loopPos (r : List Resp) : (s.respond r).loopPos = s.loopPos := rfl
@[simp] theorem respond_dio (r : List Resp) : (s.respond r).dio = s.dio := rfl
@[simp] theorem respond_longPress (r : List Resp) : (s.respond r).longPress = s.longPress := rfl
@[simp] theorem respond_rtc (r : List Resp) : (s.respond r).rtc = s.rtc := rfl
@[simp] theorem respond_alarmPending (r : List Resp) : (s.respond r).alarmPending = s.alarmPending := rfl
@[simp] theorem respond_ind (r : List Resp) : (s.respond r).ind = s.ind := rfl
@[simp] theorem respond_run (r : List Resp) : (s.respond r).run = s.run := rfl
@[simp] theorem respond_mainRail (r : List Resp) : (s.respond r).mainRail = s.mainRail := rfl
@[simp] theorem respond_auxRail (r : List Resp) : (s.respond r).auxRail = s.auxRail := rfl
@[simp] theorem respond_blOn (r : List Resp) : (s.respond r).blOn = s.blOn := rfl
@[simp] theorem respond_critCnt (r : List Resp) : (s.respond r).critCnt = s.critCnt := rfl
@[simp] theorem respond_halted (r : List Resp) : (s.respond r).halted = s.halted := rfl
@[simp] theorem respond_ps (r : List Resp) : (s.respond r).ps = s.ps := rfl
@[simp] theorem respond_meas (r : List Resp) : (s.respond r).meas = s.meas := rfl
@[simp] theorem respond_temp (r : List Resp) : (s.respond r).temp = s.temp := rfl
@[simp] theorem respond_filt (r : List Resp) : (s.respond r).filt = s.filt := rfl

/-! ## `drawPtr` -/

@[simp] theorem drawPtr_cfg : (s.drawPtr).cfg = s.cfg := rfl
@[simp] theorem drawPtr_inbox : (s.drawPtr).inbox = s.inbox := rfl
@[simp] theorem drawPtr_out : (s.drawPtr).out = s.out := rfl
@[simp] theorem drawPtr_mem : (s.drawPtr).mem = s.mem := rfl
@[simp] theorem drawPtr_nv : (s.drawPtr).nv = s.nv := rfl
@[simp] theorem drawPtr_slots : (s.drawPtr).slots = s.slots := rfl
@[simp] theorem drawPtr_timeCommit : (s.drawPtr).timeCommit = s.timeCommit := rfl
@[simp] theorem drawPtr_alarmCommit : (s.drawPtr).alarmCommit = s.alarmCommit := rfl
@[simp] theorem drawPtr_corrCommit : (s.drawPtr).corrCommit = s.corrCommit := rfl
@[simp] theorem drawPtr_sched : (s.drawPtr).sched = s.sched := rfl
@[simp] theorem drawPtr_wdtCnt : (s.drawPtr).wdtCnt = s.wdtCnt := rfl
@[simp] theorem drawPtr_loopPos : (s.drawPtr).loopPos = s.loopPos := rfl
@[simp] theorem drawPtr_dio : (s.drawPtr).dio = s.dio := rfl
@[simp] theorem drawPtr_longPress : (s.drawPtr).longPress = s.longPress := rfl
@[simp] theorem drawPtr_rtc : (s.drawPtr).rtc = s.rtc := rfl
@[simp] theorem drawPtr_alarmPending : (s.drawPtr).alarmPending = s.alarmPending := rfl
@[simp] theorem drawPtr_ind : (s.drawPtr).ind = s.ind := rfl
@[simp] theorem drawPtr_run : (s.drawPtr).run = s.run := rfl
@[simp] theorem drawPtr_mainRail : (s.drawPtr).mainRail = s.mainRail := rfl
@[simp] theorem drawPtr_auxRail : (s.drawPtr).auxRail = s.auxRail := rfl
@[simp] theorem drawPtr_blOn : (s.drawPtr).blOn = s.blOn := rfl
@[simp] theorem drawPtr_critCnt : (s.drawPtr).critCnt = s.critCnt := rfl
@[simp] theorem drawPtr_halted : (s.drawPtr).halted = s.halted := rfl
@[simp] theorem drawPtr_ps : (s.drawPtr).ps = s.ps := rfl
@[simp] theorem drawPtr_meas : (s.drawPtr).meas = s.meas := rfl
@[simp] theorem drawPtr_temp : (s.drawPtr).temp = s.temp := rfl
@[simp] theorem drawPtr_filt : (s.drawPtr).filt = s.filt := rfl

/-! ## `take` -/

@[simp] theorem take_cfg (r : List Byte) : (s.take r).cfg = s.cfg := rfl
@[simp] theorem take_out (r : List Byte) : (s.take r).out = s.out := rfl
@[simp] theorem take_draws (r : List Byte) : (s.take r).draws = s.draws := rfl
@[simp] theorem take_mem (r : List Byte) : (s.take r).mem = s.mem := rfl
@[simp] theorem take_nv (r : List Byte) : (s.take r).nv = s.nv := rfl
@[simp] theorem take_slots (r : List Byte) : (s.take r).slots = s.slots := rfl
@[simp] theorem take_timeCommit (r : List Byte) : (s.take r).timeCommit = s.timeCommit := rfl
@[simp] theorem take_alarmCommit (r : List Byte) : (s.take r).alarmCommit = s.alarmCommit := rfl
@[simp] theorem take_corrCommit (r : List Byte) : (s.take r).corrCommit = s.corrCommit := rfl
@[simp] theorem take_bus (r : List Byte) : (s.take r).bus = s.bus := rfl
@[simp] theorem take_sched (r : List Byte) : (s.take r).sched = s.sched := rfl
@[simp] theorem take_wdtCnt (r : List Byte) : (s.take r).wdtCnt = s.wdtCnt := rfl
@[simp] theorem take_loopPos (r : List Byte) : (s.take r).loopPos = s.loopPos := rfl
@[simp] theorem take_dio (r : List Byte) : (s.take r).dio = s.dio := rfl
@[simp] theorem take_longPress (r : List Byte) : (s.take r).longPress = s.longPress := rfl
@[simp] theorem take_rtc (r : List Byte) : (s.take r).rtc = s.rtc := rfl
@[simp] theorem take_alarmPending (r : List Byte) : (s.take r).alarmPending = s.alarmPending := rfl
@[simp] theorem take_ind (r : List Byte) : (s.take r).ind = s.ind := rfl
@[simp] theorem take_run (r : List Byte) : (s.take r).run = s.run := rfl
@[simp] theorem take_mainRail (r : List Byte) : (s.take r).mainRail = s.mainRail := rfl
@[simp] theorem take_auxRail (r : List Byte) : (s.take r).auxRail = s.auxRail := rfl
@[simp] theorem take_blOn (r : List Byte) : (s.take r).blOn = s.blOn := rfl
@[simp] theorem take_critCnt (r : List Byte) : (s.take r).critCnt = s.critCnt := rfl
@[simp] theorem take_halted (r : List Byte) : (s.take r).halted = s.halted := rfl
@[simp] theorem take_ps (r : List Byte) : (s.take r).ps = s.ps := rfl
@[simp] theorem take_meas (r : List Byte) : (s.take r).meas = s.meas := rfl
@[simp] theorem take_temp (r : List Byte) : (s.take r).temp = s.temp := rfl
@[simp] theorem take_filt (r : List Byte) : (s.take r).filt = s.filt := rfl

/-! ## `setBe32` -/

@[simp] theorem setBe32_cfg (k : Fin 32) (v : Word) : (s.setBe32 k v).cfg = s.cfg := rfl
@[simp] theorem setBe32_inbox (k : Fin 32) (v : Word) : (s.setBe32 k v).inbox = s.inbox := rfl
@[simp] theorem setBe32_out (k : Fin 32) (v : Word) : (s.setBe32 k v).out = s.out := rfl
@[simp] theorem setBe32_draws (k : Fin 32) (v : Word) : (s.setBe32 k v).draws = s.draws := rfl
@[simp] theorem setBe32_mem (k : Fin 32) (v : Word) : (s.setBe32 k v).mem = s.mem := rfl
@[simp] theorem setBe32_nv (k : Fin 32) (v : Word) : (s.setBe32 k v).nv = s.nv := rfl
@[simp] theorem setBe32_timeCommit (k : Fin 32) (v : Word) : (s.setBe32 k v).timeCommit = s.timeCommit := rfl
@[simp] theorem setBe32_alarmCommit (k : Fin 32) (v : Word) : (s.setBe32 k v).alarmCommit = s.alarmCommit := rfl
@[simp] theorem setBe32_corrCommit (k : Fin 32) (v : Word) : (s.setBe32 k v).corrCommit = s.corrCommit := rfl
@[simp] theorem setBe32_bus (k : Fin 32) (v : Word) : (s.setBe32 k v).bus = s.bus := rfl
@[simp] theorem setBe32_sched (k : Fin 32) (v : Word) : (s.setBe32 k v).sched = s.sched := rfl
@[simp] theorem setBe32_wdtCnt (k : Fin 32) (v : Word) : (s.setBe32 k v).wdtCnt = s.wdtCnt := rfl
@[simp] theorem setBe32_loopPos (k : Fin 32) (v : Word) : (s.setBe32 k v).loopPos = s.loopPos := rfl
@[simp] theorem setBe32_dio (k : Fin 32) (v : Word) : (s.setBe32 k v).dio = s.dio := rfl
@[simp] theorem setBe32_longPress (k : Fin 32) (v : Word) : (s.setBe32 k v).longPress = s.longPress := rfl
@[simp] theorem setBe32_rtc (k : Fin 32) (v : Word) : (s.setBe32 k v).rtc = s.rtc := rfl
@[simp] theorem setBe32_alarmPending (k : Fin 32) (v : Word) : (s.setBe32 k v).alarmPending = s.alarmPending := rfl
@[simp] theorem setBe32_ind (k : Fin 32) (v : Word) : (s.setBe32 k v).ind = s.ind := rfl
@[simp] theorem setBe32_run (k : Fin 32) (v : Word) : (s.setBe32 k v).run = s.run := rfl
@[simp] theorem setBe32_mainRail (k : Fin 32) (v : Word) : (s.setBe32 k v).mainRail = s.mainRail := rfl
@[simp] theorem setBe32_auxRail (k : Fin 32) (v : Word) : (s.setBe32 k v).auxRail = s.auxRail := rfl
@[simp] theorem setBe32_blOn (k : Fin 32) (v : Word) : (s.setBe32 k v).blOn = s.blOn := rfl
@[simp] theorem setBe32_critCnt (k : Fin 32) (v : Word) : (s.setBe32 k v).critCnt = s.critCnt := rfl
@[simp] theorem setBe32_halted (k : Fin 32) (v : Word) : (s.setBe32 k v).halted = s.halted := rfl
@[simp] theorem setBe32_ps (k : Fin 32) (v : Word) : (s.setBe32 k v).ps = s.ps := rfl
@[simp] theorem setBe32_meas (k : Fin 32) (v : Word) : (s.setBe32 k v).meas = s.meas := rfl
@[simp] theorem setBe32_temp (k : Fin 32) (v : Word) : (s.setBe32 k v).temp = s.temp := rfl
@[simp] theorem setBe32_filt (k : Fin 32) (v : Word) : (s.setBe32 k v).filt = s.filt := rfl

/-! ## `setBe16` -/

@[simp] theorem setBe16_cfg (k : Fin 32) (v : Half) : (s.setBe16 k v).cfg = s.cfg := rfl
@[simp] theorem setBe16_inbox (k : Fin 32) (v : Half) : (s.setBe16 k v).inbox = s.inbox := rfl
@[simp] theorem setBe16_out (k : Fin 32) (v : Half) : (s.setBe16 k v).out = s.out := rfl
@[simp] theorem setBe16_draws (k : Fin 32) (v : Half) : (s.setBe16 k v).draws = s.draws := rfl
@[simp] theorem setBe16_mem (k : Fin 32) (v : Half) : (s.setBe16 k v).mem = s.mem := rfl
@[simp] theorem setBe16_nv (k : Fin 32) (v : Half) : (s.setBe16 k v).nv = s.nv := rfl
@[simp] theorem setBe16_timeCommit (k : Fin 32) (v : Half) : (s.setBe16 k v).timeCommit = s.timeCommit := rfl
@[simp] theorem setBe16_alarmCommit (k : Fin 32) (v : Half) : (s.setBe16 k v).alarmCommit = s.alarmCommit := rfl
@[simp] theorem setBe16_corrCommit (k : Fin 32) (v : Half) : (s.setBe16 k v).corrCommit = s.corrCommit := rfl
@[simp] theorem setBe16_bus (k : Fin 32) (v : Half) : (s.setBe16 k v).bus = s.bus := rfl
@[simp] theorem setBe16_sched (k : Fin 32) (v : Half) : (s.setBe16 k v).sched = s.sched := rfl
@[simp] theorem setBe16_wdtCnt (k : Fin 32) (v : Half) : (s.setBe16 k v).wdtCnt = s.wdtCnt := rfl
@[simp] theorem setBe16_loopPos (k : Fin 32) (v : Half) : (s.setBe16 k v).loopPos = s.loopPos := rfl
@[simp] theorem setBe16_dio (k : Fin 32) (v : Half) : (s.setBe16 k v).dio = s.dio := rfl
@[simp] theorem setBe16_longPress (k : Fin 32) (v : Half) : (s.setBe16 k v).longPress = s.longPress := rfl
@[simp] theorem setBe16_rtc (k : Fin 32) (v : Half) : (s.setBe16 k v).rtc = s.rtc := rfl
@[simp] theorem setBe16_alarmPending (k : Fin 32) (v : Half) : (s.setBe16 k v).alarmPending = s.alarmPending := rfl
@[simp] theorem setBe16_ind (k : Fin 32) (v : Half) : (s.setBe16 k v).ind = s.ind := rfl
@[simp] theorem setBe16_run (k : Fin 32) (v : Half) : (s.setBe16 k v).run = s.run := rfl
@[simp] theorem setBe16_mainRail (k : Fin 32) (v : Half) : (s.setBe16 k v).mainRail = s.mainRail := rfl
@[simp] theorem setBe16_auxRail (k : Fin 32) (v : Half) : (s.setBe16 k v).auxRail = s.auxRail := rfl
@[simp] theorem setBe16_blOn (k : Fin 32) (v : Half) : (s.setBe16 k v).blOn = s.blOn := rfl
@[simp] theorem setBe16_critCnt (k : Fin 32) (v : Half) : (s.setBe16 k v).critCnt = s.critCnt := rfl
@[simp] theorem setBe16_halted (k : Fin 32) (v : Half) : (s.setBe16 k v).halted = s.halted := rfl
@[simp] theorem setBe16_ps (k : Fin 32) (v : Half) : (s.setBe16 k v).ps = s.ps := rfl
@[simp] theorem setBe16_meas (k : Fin 32) (v : Half) : (s.setBe16 k v).meas = s.meas := rfl
@[simp] theorem setBe16_temp (k : Fin 32) (v : Half) : (s.setBe16 k v).temp = s.temp := rfl
@[simp] theorem setBe16_filt (k : Fin 32) (v : Half) : (s.setBe16 k v).filt = s.filt := rfl

/-! ## `setShort` -/

@[simp] theorem setShort_cfg (b : Bool) : (s.setShort b).cfg = s.cfg := rfl
@[simp] theorem setShort_inbox (b : Bool) : (s.setShort b).inbox = s.inbox := rfl
@[simp] theorem setShort_out (b : Bool) : (s.setShort b).out = s.out := rfl
@[simp] theorem setShort_draws (b : Bool) : (s.setShort b).draws = s.draws := rfl
@[simp] theorem setShort_mem (b : Bool) : (s.setShort b).mem = s.mem := rfl
@[simp] theorem setShort_nv (b : Bool) : (s.setShort b).nv = s.nv := rfl
@[simp] theorem setShort_timeCommit (b : Bool) : (s.setShort b).timeCommit = s.timeCommit := rfl
@[simp] theorem setShort_alarmCommit (b : Bool) : (s.setShort b).alarmCommit = s.alarmCommit := rfl
@[simp] theorem setShort_corrCommit (b : Bool) : (s.setShort b).corrCommit = s.corrCommit := rfl
@[simp] theorem setShort_bus (b : Bool) : (s.setShort b).bus = s.bus := rfl
@[simp] theorem setShort_sched (b : Bool) : (s.setShort b).sched = s.sched := rfl
@[simp] theorem setShort_wdtCnt (b : Bool) : (s.setShort b).wdtCnt = s.wdtCnt := rfl
@[simp] theorem setShort_loopPos (b : Bool) : (s.setShort b).loopPos = s.loopPos := rfl
@[simp] theorem setShort_dio (b : Bool) : (s.setShort b).dio = s.dio := rfl
@[simp] theorem setShort_longPress (b : Bool) : (s.setShort b).longPress = s.longPress := rfl
@[simp] theorem setShort_rtc (b : Bool) : (s.setShort b).rtc = s.rtc := rfl
@[simp] theorem setShort_alarmPending (b : Bool) : (s.setShort b).alarmPending = s.alarmPending := rfl
@[simp] theorem setShort_ind (b : Bool) : (s.setShort b).ind = s.ind := rfl
@[simp] theorem setShort_run (b : Bool) : (s.setShort b).run = s.run := rfl
@[simp] theorem setShort_mainRail (b : Bool) : (s.setShort b).mainRail = s.mainRail := rfl
@[simp] theorem setShort_auxRail (b : Bool) : (s.setShort b).auxRail = s.auxRail := rfl
@[simp] theorem setShort_blOn (b : Bool) : (s.setShort b).blOn = s.blOn := rfl
@[simp] theorem setShort_critCnt (b : Bool) : (s.setShort b).critCnt = s.critCnt := rfl
@[simp] theorem setShort_halted (b : Bool) : (s.setShort b).halted = s.halted := rfl
@[simp] theorem setShort_ps (b : Bool) : (s.setShort b).ps = s.ps := rfl
@[simp] theorem setShort_meas (b : Bool) : (s.setShort b).meas = s.meas := rfl
@[simp] theorem setShort_temp (b : Bool) : (s.setShort b).temp = s.temp := rfl
@[simp] theorem setShort_filt (b : Bool) : (s.setShort b).filt = s.filt := rfl

/-! ## `setCrit` -/

@[simp] theorem setCrit_cfg (b : Bool) : (s.setCrit b).cfg = s.cfg := rfl
@[simp] theorem setCrit_inbox (b : Bool) : (s.setCrit b).inbox = s.inbox := rfl
@[simp] theorem setCrit_out (b : Bool) : (s.setCrit b).out = s.out := rfl
@[simp] theorem setCrit_draws (b : Bool) : (s.setCrit b).draws = s.draws := rfl
@[simp] theorem setCrit_mem (b : Bool) : (s.setCrit b).mem = s.mem := rfl
@[simp] theorem setCrit_nv (b : Bool) : (s.setCrit b).nv = s.nv := rfl
@[simp] theorem setCrit_timeCommit (b : Bool) : (s.setCrit b).timeCommit = s.timeCommit := rfl
@[simp] theorem setCrit_alarmCommit (b : Bool) : (s.setCrit b).alarmCommit = s.alarmCommit := rfl
@[simp] theorem setCrit_corrCommit (b : Bool) : (s.setCrit b).corrCommit = s.corrCommit := rfl
@[simp] theorem setCrit_bus (b : Bool) : (s.setCrit b).bus = s.bus := rfl
@[simp] theorem setCrit_sched (b : Bool) : (s.setCrit b).sched = s.sched := rfl
@[simp] theorem setCrit_wdtCnt (b : Bool) : (s.setCrit b).wdtCnt = s.wdtCnt := rfl
@[simp] theorem setCrit_loopPos (b : Bool) : (s.setCrit b).loopPos = s.loopPos := rfl
@[simp] theorem setCrit_dio (b : Bool) : (s.setCrit b).dio = s.dio := rfl
@[simp] theorem setCrit_longPress (b : Bool) : (s.setCrit b).longPress = s.longPress := rfl
@[simp] theorem setCrit_rtc (b : Bool) : (s.setCrit b).rtc = s.rtc := rfl
@[simp] theorem setCrit_alarmPending (b : Bool) : (s.setCrit b).alarmPending = s.alarmPending := rfl
@[simp] theorem setCrit_ind (b : Bool) : (s.setCrit b).ind = s.ind := rfl
@[simp] theorem setCrit_run (b : Bool) : (s.setCrit b).run = s.run := rfl
@[simp] theorem setCrit_mainRail (b : Bool) : (s.setCrit b).mainRail = s.mainRail := rfl
@[simp] theorem setCrit_auxRail (b : Bool) : (s.setCrit b).auxRail = s.auxRail := rfl
@[simp] theorem setCrit_blOn (b : Bool) : (s.setCrit b).blOn = s.blOn := rfl
@[simp] theorem setCrit_critCnt (b : Bool) : (s.setCrit b).critCnt = s.critCnt := rfl
@[simp] theorem setCrit_halted (b : Bool) : (s.setCrit b).halted = s.halted := rfl
@[simp] theorem setCrit_ps (b : Bool) : (s.setCrit b).ps = s.ps := rfl
@[simp] theorem setCrit_meas (b : Bool) : (s.setCrit b).meas = s.meas := rfl
@[simp] theorem setCrit_temp (b : Bool) : (s.setCrit b).temp = s.temp := rfl
@[simp] theorem setCrit_filt (b : Bool) : (s.setCrit b).filt = s.filt := rfl

/-! ## `setReason` -/

@[simp] theorem setReason_cfg (r : BitVec 3) : (s.setReason r).cfg = s.cfg := rfl
@[simp] theorem setReason_inbox (r : BitVec 3) : (s.setReason r).inbox = s.inbox := rfl
@[simp] theorem setReason_out (r : BitVec 3) : (s.setReason r).out = s.out := rfl
@[simp] theorem setReason_draws (r : BitVec 3) : (s.setReason r).draws = s.draws := rfl
@[simp] theorem setReason_mem (r : BitVec 3) : (s.setReason r).mem = s.mem := rfl
@[simp] theorem setReason_nv (r : BitVec 3) : (s.setReason r).nv = s.nv := rfl
@[simp] theorem setReason_timeCommit (r : BitVec 3) : (s.setReason r).timeCommit = s.timeCommit := rfl
@[simp] theorem setReason_alarmCommit (r : BitVec 3) : (s.setReason r).alarmCommit = s.alarmCommit := rfl
@[simp] theorem setReason_corrCommit (r : BitVec 3) : (s.setReason r).corrCommit = s.corrCommit := rfl
@[simp] theorem setReason_bus (r : BitVec 3) : (s.setReason r).bus = s.bus := rfl
@[simp] theorem setReason_sched (r : BitVec 3) : (s.setReason r).sched = s.sched := rfl
@[simp] theorem setReason_wdtCnt (r : BitVec 3) : (s.setReason r).wdtCnt = s.wdtCnt := rfl
@[simp] theorem setReason_loopPos (r : BitVec 3) : (s.setReason r).loopPos = s.loopPos := rfl
@[simp] theorem setReason_dio (r : BitVec 3) : (s.setReason r).dio = s.dio := rfl
@[simp] theorem setReason_longPress (r : BitVec 3) : (s.setReason r).longPress = s.longPress := rfl
@[simp] theorem setReason_rtc (r : BitVec 3) : (s.setReason r).rtc = s.rtc := rfl
@[simp] theorem setReason_alarmPending (r : BitVec 3) : (s.setReason r).alarmPending = s.alarmPending := rfl
@[simp] theorem setReason_ind (r : BitVec 3) : (s.setReason r).ind = s.ind := rfl
@[simp] theorem setReason_run (r : BitVec 3) : (s.setReason r).run = s.run := rfl
@[simp] theorem setReason_mainRail (r : BitVec 3) : (s.setReason r).mainRail = s.mainRail := rfl
@[simp] theorem setReason_auxRail (r : BitVec 3) : (s.setReason r).auxRail = s.auxRail := rfl
@[simp] theorem setReason_blOn (r : BitVec 3) : (s.setReason r).blOn = s.blOn := rfl
@[simp] theorem setReason_critCnt (r : BitVec 3) : (s.setReason r).critCnt = s.critCnt := rfl
@[simp] theorem setReason_halted (r : BitVec 3) : (s.setReason r).halted = s.halted := rfl
@[simp] theorem setReason_ps (r : BitVec 3) : (s.setReason r).ps = s.ps := rfl
@[simp] theorem setReason_meas (r : BitVec 3) : (s.setReason r).meas = s.meas := rfl
@[simp] theorem setReason_temp (r : BitVec 3) : (s.setReason r).temp = s.temp := rfl
@[simp] theorem setReason_filt (r : BitVec 3) : (s.setReason r).filt = s.filt := rfl

/-! ## The fields that the updates do change -/

@[simp] theorem setPtr_bus (p : Half) : (s.setPtr p).bus = { s.bus with ptr := p } := rfl
@[simp] theorem respond_out (r : List Resp) : (s.respond r).out = r := rfl
@[simp] theorem drawPtr_bus : s.drawPtr.bus = { s.bus with ptr := Config.freePtr s.draws } := rfl
@[simp] theorem drawPtr_draws : s.drawPtr.draws = s.draws + 1 := rfl
@[simp] theorem take_inbox (r : List Byte) : (s.take r).inbox = r := rfl

/-! ## Reading a slot after an update -/

/-- A slot after one slot is written. -/
theorem slot_setSlot (k j : Fin 32) (b : Byte) : (s.setSlot k b).slot j = if j = k then b else s.slot j := by
  simp only [State.slot, State.setSlot, Vector.getElem_set]
  by_cases h : j = k
  · simp [h]
  · have h' : k.val ≠ j.val := fun e => h (Fin.ext e.symm)
    simp [h, h']

@[simp] theorem slot_setSlot_same (k : Fin 32) (b : Byte) : (s.setSlot k b).slot k = b := by
  simp [slot_setSlot]

theorem slot_setSlot_other {k j : Fin 32} (b : Byte) (h : j ≠ k) : (s.setSlot k b).slot j = s.slot j := by
  simp [slot_setSlot, h]

@[simp] theorem slot_setPtr (p : Half) (j : Fin 32) : (s.setPtr p).slot j = s.slot j := rfl
@[simp] theorem slot_respond (r : List Resp) (j : Fin 32) : (s.respond r).slot j = s.slot j := rfl
@[simp] theorem slot_drawPtr (j : Fin 32) : s.drawPtr.slot j = s.slot j := rfl
@[simp] theorem slot_take (r : List Byte) (j : Fin 32) : (s.take r).slot j = s.slot j := rfl

/-- Two states with the same slots by number have the same slots. -/
theorem slots_ext {s t : State} (h : ∀ k, s.slot k = t.slot k) : s.slots = t.slots := by
  apply Vector.ext
  intro i hi
  exact h ⟨i, hi⟩

/-! ## One value for each consumer -/

@[simp] theorem perConsumer_get_set {α : Type} (v : PerConsumer α) (c d : Consumer) (x : α) :
    (v.set c x).get d = if d = c then x else v.get d := by
  cases c <;> cases d <;> rfl

@[simp] theorem perConsumer_get_all {α : Type} (x : α) (c : Consumer) : (PerConsumer.all x).get c = x := by
  cases c <;> rfl

/-- Two records with the same value for every consumer are equal. -/
theorem perConsumer_ext {α : Type} {v w : PerConsumer α} (h : ∀ c, v.get c = w.get c) : v = w := by
  cases v; cases w
  have h1 := h .ps; have h2 := h .rtc; have h3 := h .dio; have h4 := h .ind; have h5 := h .run
  simp only [PerConsumer.get] at h1 h2 h3 h4 h5
  subst h1 h2 h3 h4 h5
  rfl

end Sys2Proof.Machine
end

