-- ==== Sys2Proof/Laws/Decode.lean ====
section
/-! SUPPORT. The bytes of wider values, the bits of a byte, and the operand forms of events: what each helper of
Decode.lean does, once. -/

namespace Sys2Proof

/-! ## Bytes of wider values -/

/-- The bits of `{hi, lo}`. -/
theorem getLsbD_join16 (h l : Byte) (i : Nat) :
    (join16 h l).getLsbD i = if i < 8 then l.getLsbD i else h.getLsbD (i - 8) := by
  have := BitVec.getLsbD_append (x := h) (y := l) (i := i)
  rw [show (join16 h l).getLsbD i = (h ++ l).getLsbD i from rfl, this]

/-- The bits of `{b0, b1, b2, b3}`. -/
theorem getLsbD_join32 (b0 b1 b2 b3 : Byte) (i : Nat) :
    (join32 b0 b1 b2 b3).getLsbD i =
      if i < 8 then b3.getLsbD i else if i < 16 then b2.getLsbD (i - 8)
      else if i < 24 then b1.getLsbD (i - 16) else b0.getLsbD (i - 24) := by
  have h3 := BitVec.getLsbD_append (x := b0 ++ b1 ++ b2) (y := b3) (i := i)
  have h2 := BitVec.getLsbD_append (x := b0 ++ b1) (y := b2) (i := i - 8)
  have h1 := BitVec.getLsbD_append (x := b0) (y := b1) (i := i - 8 - 8)
  rw [show (join32 b0 b1 b2 b3).getLsbD i = (b0 ++ b1 ++ b2 ++ b3).getLsbD i from rfl, h3, h2, h1]
  have e1 : i - 8 - 8 = i - 16 := by omega
  have e2 : i - 8 - 8 - 8 = i - 24 := by omega
  by_cases c1 : i < 8
  · simp [c1]
  · by_cases c2 : i < 16
    · have : i - 8 < 8 := by omega
      simp [c1, c2, this]
    · have n2 : ¬(i - 8 < 8) := by omega
      by_cases c3 : i < 24
      · have : i - 8 - 8 < 8 := by omega
        rw [if_neg c1, if_neg n2, if_pos this, if_neg c1, if_neg c2, if_pos c3, e1]
      · have : ¬(i - 8 - 8 < 8) := by omega
        rw [if_neg c1, if_neg n2, if_neg this, if_neg c1, if_neg c2, if_neg c3, e2]

theorem getLsbD_hiByte (v : Half) (i : Nat) : (hiByte v).getLsbD i = (decide (i < 8) && v.getLsbD (8 + i)) := by
  simp [hiByte, BitVec.getLsbD_extractLsb']

theorem getLsbD_loByte (v : Half) (i : Nat) : (loByte v).getLsbD i = (decide (i < 8) && v.getLsbD i) := by
  simp [loByte, BitVec.getLsbD_extractLsb']

theorem getLsbD_byteOf32 (v : Word) (j i : Nat) :
    (byteOf32 v j).getLsbD i = (decide (i < 8) && v.getLsbD (24 - 8 * j + i)) := by
  simp [byteOf32, BitVec.getLsbD_extractLsb']

@[simp] theorem join16_hi_lo (v : Half) : join16 (hiByte v) (loByte v) = v := by
  apply BitVec.eq_of_getLsbD_eq
  intro i hi
  rw [getLsbD_join16, getLsbD_hiByte, getLsbD_loByte]
  by_cases h : i < 8
  · simp [h]
  · have h1 : i - 8 < 8 := by omega
    have h2 : 8 + (i - 8) = i := by omega
    simp [h, h1, h2]

@[simp] theorem hiByte_join16 (h l : Byte) : hiByte (join16 h l) = h := by
  apply BitVec.eq_of_getLsbD_eq
  intro i hi
  rw [getLsbD_hiByte, getLsbD_join16]
  simp [hi]

@[simp] theorem loByte_join16 (h l : Byte) : loByte (join16 h l) = l := by
  apply BitVec.eq_of_getLsbD_eq
  intro i hi
  rw [getLsbD_loByte, getLsbD_join16]
  simp [hi]

@[simp] theorem join32_bytes (v : Word) :
    join32 (byteOf32 v 0) (byteOf32 v 1) (byteOf32 v 2) (byteOf32 v 3) = v := by
  apply BitVec.eq_of_getLsbD_eq
  intro i hi
  rw [getLsbD_join32]
  simp only [getLsbD_byteOf32]
  by_cases c1 : i < 8
  · simp [c1]
  · by_cases c2 : i < 16
    · have h1 : i - 8 < 8 := by omega
      have h2 : 24 - 8 * 2 + (i - 8) = i := by omega
      simp [c1, c2, h1, h2]
    · by_cases c3 : i < 24
      · have h1 : i - 16 < 8 := by omega
        have h2 : 24 - 8 * 1 + (i - 16) = i := by omega
        simp [c1, c2, c3, h1, h2]
      · have h1 : i - 24 < 8 := by omega
        have h2 : 24 - 8 * 0 + (i - 24) = i := by omega
        simp [c1, c2, c3, h1, h2]

/-! ## Bits of a byte -/

/-- Writing one bit writes that bit and no other. -/
theorem getLsbD_putBit (v : Byte) (i j : Nat) (b : Bool) :
    (putBit v i b).getLsbD j = if j = i ∧ j < 8 then b else v.getLsbD j := by
  unfold putBit
  by_cases hj : j < 8
  · by_cases hji : j = i
    · subst hji
      cases b <;> simp [hj]
    · by_cases hlt : j < i
      · cases b <;> simp [hj, hlt, hji]
      · have : ¬(j - i = 0) := by omega
        cases b <;> simp [hj, hlt, hji, this]
  · have h' : ∀ w : Byte, w.getLsbD j = false := fun w => BitVec.getLsbD_of_ge w j (by omega)
    simp [h', hj]

/-- The bits of 7. -/
theorem getLsbD_seven (k : Nat) : (7#8).getLsbD k = decide (k < 3) := by
  by_cases hk : k < 8
  · have : ∀ k : Fin 8, (7#8).getLsbD k.val = decide (k.val < 3) := by decide
    exact this ⟨k, hk⟩
  · rw [BitVec.getLsbD_of_ge _ _ (by omega)]
    have : ¬ k < 3 := by omega
    simp [this]

/-- Writing a 3-bit field writes its bits and no other. -/
theorem getLsbD_putField3 (v : Byte) (lsb j : Nat) (r : BitVec 3) :
    (putField3 v lsb r).getLsbD j =
      if lsb ≤ j ∧ j < lsb + 3 ∧ j < 8 then r.getLsbD (j - lsb) else v.getLsbD j := by
  rw [putField3, BitVec.getLsbD_or, BitVec.getLsbD_and, BitVec.getLsbD_not, BitVec.getLsbD_shiftLeft,
    BitVec.getLsbD_shiftLeft, getLsbD_seven, BitVec.getLsbD_setWidth]
  by_cases hj : j < 8
  · by_cases hlt : j < lsb
    · have h1 : ¬(lsb ≤ j ∧ j < lsb + 3 ∧ j < 8) := by omega
      rw [if_neg h1]
      simp only [hj, hlt, decide_true, Bool.not_true, Bool.and_false, Bool.false_and, Bool.not_false,
        Bool.and_true, Bool.or_false]
    · by_cases h3 : j < lsb + 3
      · have h1 : lsb ≤ j ∧ j < lsb + 3 ∧ j < 8 := by omega
        have h4 : j - lsb < 3 := by omega
        have h5 : j - lsb < 8 := by omega
        simp only [hj, hlt, h1, h4, h5, decide_true, decide_false, Bool.not_false, Bool.and_true, Bool.true_and,
          Bool.not_true, Bool.and_false, Bool.false_or, and_self, if_true]
      · have h1 : ¬(lsb ≤ j ∧ j < lsb + 3 ∧ j < 8) := by omega
        have h4 : ¬(j - lsb < 3) := by omega
        have h5 : r.getLsbD (j - lsb) = false := BitVec.getLsbD_of_ge r _ (by omega)
        rw [if_neg h1]
        simp only [hj, hlt, h4, h5, decide_true, decide_false, Bool.not_false, Bool.and_true, Bool.and_false,
          Bool.or_false]
  · have h' : ∀ w : Byte, w.getLsbD j = false := fun w => BitVec.getLsbD_of_ge w j (by omega)
    have h1 : ¬(lsb ≤ j ∧ j < lsb + 3 ∧ j < 8) := by omega
    rw [h', if_neg h1]
    simp only [hj, decide_false, Bool.false_and, Bool.or_false]

/-- A 3-bit field's bits are the byte's bits from its lowest one. -/
theorem getLsbD_getField3 (v : Byte) (lsb i : Nat) :
    (getField3 v lsb).getLsbD i = (decide (i < 3) && v.getLsbD (lsb + i)) := by
  simp [getField3, BitVec.getLsbD_extractLsb']

/-- Two bytes with the same bits are equal. -/
theorem byte_ext {v w : Byte} (h : ∀ j, j < 8 → v.getLsbD j = w.getLsbD j) : v = w :=
  BitVec.eq_of_getLsbD_eq (fun i hi => h i hi)

/-! ## Operands -/

@[simp] theorem take1_cons (t : Tag) (b : Byte) (r : List Byte) (k : Byte → List Byte → Decoded) :
    take1 t (b :: r) k = k b r := rfl

@[simp] theorem take16_bytes16 (t : Tag) (v : Half) (r : List Byte) (k : Half → List Byte → Decoded) :
    take16 t (bytes16 v ++ r) k = k v r := by
  simp [take16, bytes16]

@[simp] theorem take32_bytes32 (t : Tag) (v : Word) (r : List Byte) (k : Word → List Byte → Decoded) :
    take32 t (bytes32 v ++ r) k = k v r := by
  simp [take32, bytes32]

@[simp] theorem ofByte_toByte (t : Tag) : Tag.ofByte t.toByte = some t := by
  cases t <;> rfl

@[simp] theorem pinsOfByte_byteOfPins (p : Pins) : pinsOfByte (byteOfPins p) = p := by
  obtain ⟨b, c0, c1, d⟩ := p
  cases b <;> cases c0 <;> cases c1 <;> cases d <;> rfl

@[simp] theorem takePins_byteOfPins (t : Tag) (p : Pins) (r : List Byte) (k : Pins → List Byte → Decoded) :
    takePins t (byteOfPins p :: r) k = k p r := by
  simp [takePins]

@[simp] theorem accessOfBytes_point : accessOfBytes 0#8 0#8 = some .point := rfl
@[simp] theorem accessOfBytes_read : accessOfBytes 1#8 0#8 = some .read := rfl
@[simp] theorem accessOfBytes_write (d : Byte) : accessOfBytes 2#8 d = some (.write d) := by
  simp [accessOfBytes]

/-- A list of bytes that starts with a tag byte is decoded by the tag's body. -/
@[simp] theorem decode_tag (c : Ctx) (t : Tag) (r : List Byte) : decode c (t.toByte :: r) = decodeBody c t r := by
  simp [decode]

end Sys2Proof
end

