-- ==== Sys2Proof/Laws/Memory.lean ====
section
/-! SUPPORT. What the operations on a byte store do to its reads, and that each keeps the canonical form. -/

namespace Sys2Proof.Machine

namespace Memory

/-! ## Reads -/

@[simp] theorem read_nil (a : Nat) : Memory.read [] a = Memory.unlisted := rfl

theorem read_cons (c : Host.Cell) (m : Memory) (a : Nat) :
    Memory.read (c :: m) a = if c.1 = a then c.2 else Memory.read m a := rfl

/-- A filter on addresses keeps the reads of the addresses it keeps and lists no other. -/
theorem read_filter (m : Memory) (p : Nat → Bool) (a : Nat) :
    Memory.read (m.filter (fun c => p c.1)) a = if p a then Memory.read m a else Memory.unlisted := by
  induction m with
  | nil => simp
  | cons c m ih =>
    rw [List.filter_cons]
    by_cases hc : p c.1
    · rw [if_pos hc, read_cons, read_cons, ih]
      by_cases h : c.1 = a
      · rw [if_pos h, if_pos h, if_pos (h ▸ hc)]
      · rw [if_neg h, if_neg h]
    · rw [if_neg hc, ih, read_cons]
      by_cases h : c.1 = a
      · rw [if_neg (h ▸ hc), if_neg (h ▸ hc)]
      · rw [if_neg h]

theorem read_drop (m : Memory) (a a' : Nat) :
    Memory.read (Memory.drop m a) a' = if a' = a then Memory.unlisted else Memory.read m a' := by
  rw [Memory.drop, read_filter m (fun x => x != a)]
  by_cases h : a' = a <;> simp [h]

/-- An entry put into a store that lists nothing at its address is read there and nowhere else. -/
theorem read_insert (m : Memory) (a : Nat) (b : Byte) (a' : Nat) (h : ∀ c ∈ m, c.1 ≠ a) :
    Memory.read (Memory.insert m a b) a' = if a' = a then b else Memory.read m a' := by
  induction m with
  | nil => simp only [Memory.insert, read_cons, read_nil]; simp [eq_comm]
  | cons c m ih =>
    have hc : c.1 ≠ a := h c (by simp)
    have hm : ∀ c ∈ m, c.1 ≠ a := fun d hd => h d (by simp [hd])
    unfold Memory.insert
    by_cases hlt : a < c.1
    · simp only [hlt, if_true, read_cons]; simp [eq_comm]
    · simp only [hlt, if_false, read_cons, ih hm]
      by_cases e : c.1 = a'
      · have : a' ≠ a := fun e' => hc (e.trans e')
        simp [e, this]
      · simp [e]

theorem drop_ne (m : Memory) (a : Nat) : ∀ c ∈ Memory.drop m a, c.1 ≠ a := by
  intro c hc
  simp only [Memory.drop, List.mem_filter] at hc
  simpa using hc.2

/-- The byte written is read at its address, every other byte as before. -/
theorem read_write (m : Memory) (a : Nat) (b : Byte) (a' : Nat) :
    Memory.read (Memory.write m a b) a' = if a' = a then b else Memory.read m a' := by
  unfold Memory.write
  by_cases h : b = Memory.unlisted
  · simp only [h, if_true, read_drop]
  · simp only [h, if_false]
    rw [read_insert _ _ _ _ (drop_ne m a), read_drop]
    by_cases e : a' = a <;> simp [e]

theorem read_below (m : Memory) (hi a : Nat) :
    Memory.read (Memory.below m hi) a = if a < hi then Memory.read m a else Memory.unlisted := by
  rw [Memory.below, read_filter m (fun x => decide (x < hi))]; simp

theorem read_above (m : Memory) (lo a : Nat) :
    Memory.read (Memory.above m lo) a = if lo ≤ a then Memory.read m a else Memory.unlisted := by
  rw [Memory.above, read_filter m (fun x => decide (lo ≤ x))]; simp

/-- A store of `below` entries before `above` entries reads the first below the border and the second from it up. -/
theorem read_below_append_above (m n : Memory) (k a : Nat) :
    Memory.read (Memory.below m k ++ Memory.above n k) a = if a < k then Memory.read m a else Memory.read n a := by
  have happ : ∀ x y : Memory, (∀ c ∈ x, c.1 ≠ a) → Memory.read (x ++ y) a = Memory.read y a := by
    intro x y hx
    induction x with
    | nil => rfl
    | cons c x ih =>
      rw [List.cons_append, read_cons, if_neg (hx c (by simp)), ih (fun d hd => hx d (by simp [hd]))]
  have happ' : ∀ x y : Memory, (∀ c ∈ y, c.1 ≠ a) → Memory.read (x ++ y) a = Memory.read x a := by
    intro x y hy
    induction x with
    | nil =>
      rw [List.nil_append, read_nil]
      induction y with
      | nil => rfl
      | cons c y ih => rw [read_cons, if_neg (hy c (by simp)), ih (fun d hd => hy d (by simp [hd]))]
    | cons c x ih => rw [List.cons_append, read_cons, read_cons, ih]
  by_cases h : a < k
  · rw [happ' _ _ ?_, read_below]
    · simp [h]
    · intro c hc
      simp only [Memory.above, List.mem_filter, decide_eq_true_eq] at hc
      omega
  · rw [happ _ _ ?_, read_above]
    · have : k ≤ a := by omega
      simp [h, this]
    · intro c hc
      simp only [Memory.below, List.mem_filter, decide_eq_true_eq] at hc
      omega

theorem read_run (b : Byte) (lo n a : Nat) :
    Memory.read (Memory.run b lo n) a = if lo ≤ a ∧ a < lo + n then b else Memory.unlisted := by
  induction n generalizing lo with
  | zero => have : ¬(lo ≤ a ∧ a < lo + 0) := by omega
            simp [Memory.run]
  | succ n ih =>
    rw [Memory.run, read_cons, ih]
    by_cases h : lo = a
    · simp [h]
    · have : (lo + 1 ≤ a ∧ a < lo + 1 + n) ↔ (lo ≤ a ∧ a < lo + (n + 1)) := by omega
      simp only [h, if_false, this]

theorem read_fill (b : Byte) (n a : Nat) :
    Memory.read (Memory.fill b n) a = if a < n then b else Memory.unlisted := by
  unfold Memory.fill
  by_cases h : b = Memory.unlisted
  · simp [h]
  · rw [if_neg h, read_run]; simp

theorem read_copy (src : Memory) (a n : Nat) (dst : Memory) (x : Nat) :
    Memory.read (Memory.copy src a n dst) x =
      if a ≤ x ∧ x < a + n then Memory.read src x else Memory.read dst x := by
  induction n generalizing a dst with
  | zero => have : ¬(a ≤ x ∧ x < a + 0) := by omega
            simp [Memory.copy]
  | succ n ih =>
    rw [Memory.copy, ih, read_write]
    by_cases h : x = a
    · subst h
      have : ¬(x + 1 ≤ x ∧ x < x + 1 + n) := by omega
      rw [if_neg this, if_pos rfl, if_pos (by omega)]
    · have : (a + 1 ≤ x ∧ x < a + 1 + n) ↔ (a ≤ x ∧ x < a + (n + 1)) := by omega
      simp only [this, h, if_false]

/-! ## The canonical form -/

/-- The canonical form in words: addresses in the range, rising, no byte as an unlisted one reads. -/
theorem wfFrom_cons (lo hi : Nat) (c : Host.Cell) (m : Memory) :
    Memory.wfFrom lo hi (c :: m) = true ↔
      lo ≤ c.1 ∧ c.1 < hi ∧ c.2 ≠ Memory.unlisted ∧ Memory.wfFrom (c.1 + 1) hi m = true := by
  simp [Memory.wfFrom, and_assoc]

/-- A store with a lower bound has every smaller lower bound. -/
theorem wfFrom_mono {lo lo' hi : Nat} {m : Memory} (h : Memory.wfFrom lo hi m = true) (hl : lo' ≤ lo) :
    Memory.wfFrom lo' hi m = true := by
  cases m with
  | nil => rfl
  | cons c m => rw [wfFrom_cons] at *; exact ⟨by omega, h.2⟩

/-- Every listed address is in the range. -/
theorem wfFrom_mem {lo hi : Nat} {m : Memory} (h : Memory.wfFrom lo hi m = true) :
    ∀ c ∈ m, lo ≤ c.1 ∧ c.1 < hi := by
  induction m generalizing lo with
  | nil => simp
  | cons d m ih =>
    rw [wfFrom_cons] at h
    intro c hc
    rcases List.mem_cons.mp hc with rfl | hc
    · exact ⟨h.1, h.2.1⟩
    · have := ih h.2.2.2 c hc
      exact ⟨by omega, this.2⟩

theorem wfFrom_filter {lo hi : Nat} {m : Memory} (p : Host.Cell → Bool) (h : Memory.wfFrom lo hi m = true) :
    Memory.wfFrom lo hi (m.filter p) = true := by
  induction m generalizing lo with
  | nil => rfl
  | cons c m ih =>
    rw [wfFrom_cons] at h
    rw [List.filter_cons]
    by_cases hp : p c
    · rw [if_pos hp, wfFrom_cons]; exact ⟨h.1, h.2.1, h.2.2.1, ih h.2.2.2⟩
    · rw [if_neg hp]; exact wfFrom_mono (ih h.2.2.2) (by omega)

theorem wfFrom_insert {lo hi a : Nat} {b : Byte} {m : Memory} (h : Memory.wfFrom lo hi m = true)
    (hlo : lo ≤ a) (hhi : a < hi) (hb : b ≠ Memory.unlisted) (hm : ∀ c ∈ m, c.1 ≠ a) :
    Memory.wfFrom lo hi (Memory.insert m a b) = true := by
  induction m generalizing lo with
  | nil => simp [Memory.insert, Memory.wfFrom, hlo, hhi, hb]
  | cons c m ih =>
    rw [wfFrom_cons] at h
    have hc : c.1 ≠ a := hm c (by simp)
    unfold Memory.insert
    by_cases hlt : a < c.1
    · rw [if_pos hlt, wfFrom_cons, wfFrom_cons]
      exact ⟨hlo, hhi, hb, hlt, h.2.1, h.2.2.1, h.2.2.2⟩
    · rw [if_neg hlt, wfFrom_cons]
      exact ⟨h.1, h.2.1, h.2.2.1, ih h.2.2.2 (by omega) (fun d hd => hm d (by simp [hd]))⟩

/-- A write inside the range keeps the canonical form. -/
theorem wf_write {hi a : Nat} {b : Byte} {m : Memory} (h : Memory.wf hi m = true) (ha : a < hi) :
    Memory.wf hi (Memory.write m a b) = true := by
  unfold Memory.write
  split
  · exact wfFrom_filter _ h
  · rename_i hb
    exact wfFrom_insert (wfFrom_filter _ h) (Nat.zero_le a) ha hb (drop_ne m a)

theorem wf_mono {hi hi' : Nat} {m : Memory} (h : Memory.wf hi m = true) (hh : hi ≤ hi') :
    Memory.wf hi' m = true := by
  have : ∀ lo, Memory.wfFrom lo hi m = true → Memory.wfFrom lo hi' m = true := by
    clear h
    induction m with
    | nil => intros; rfl
    | cons c m ih =>
      intro lo h
      rw [wfFrom_cons] at *
      exact ⟨h.1, by omega, h.2.2.1, ih _ h.2.2.2⟩
  exact this 0 h

theorem wf_below {hi k : Nat} {m : Memory} (h : Memory.wf hi m = true) : Memory.wf hi (Memory.below m k) = true :=
  wfFrom_filter _ h

theorem wf_above {hi k : Nat} {m : Memory} (h : Memory.wf hi m = true) : Memory.wf hi (Memory.above m k) = true :=
  wfFrom_filter _ h

theorem wf_below_append_above {hi k : Nat} {m n : Memory} (hm : Memory.wf hi m = true)
    (hn : Memory.wf hi n = true) : Memory.wf hi (Memory.below m k ++ Memory.above n k) = true := by
  have habove : ∀ lo, lo ≤ k → Memory.wfFrom lo hi (Memory.above n k) = true := by
    have key : ∀ (n : Memory) (l : Nat), Memory.wfFrom l hi n = true → Memory.wfFrom k hi (Memory.above n k) = true := by
      intro n
      induction n with
      | nil => intros; rfl
      | cons c n ih =>
        intro l h
        rw [wfFrom_cons] at h
        unfold Memory.above
        rw [List.filter_cons]
        by_cases hk : k ≤ c.1
        · simp only [hk, decide_true, if_true]
          rw [wfFrom_cons]
          exact ⟨hk, h.2.1, h.2.2.1, wfFrom_filter _ h.2.2.2⟩
        · simp only [hk, decide_false, Bool.false_eq_true, if_false]
          exact ih _ h.2.2.2
    exact fun lo hlo => wfFrom_mono (key n 0 hn) hlo
  have key : ∀ (x : Memory) (lo : Nat), Memory.wfFrom lo hi x = true → (∀ c ∈ x, c.1 < k) → lo ≤ k →
      Memory.wfFrom lo hi (x ++ Memory.above n k) = true := by
    intro x
    induction x with
    | nil => intro lo _ _ hlo; exact habove lo hlo
    | cons c x ih =>
      intro lo h hx hlo
      rw [wfFrom_cons] at h
      rw [List.cons_append, wfFrom_cons]
      have := hx c (by simp)
      exact ⟨h.1, h.2.1, h.2.2.1, ih _ h.2.2.2 (fun d hd => hx d (by simp [hd])) (by omega)⟩
  refine key _ 0 (wf_below hm) ?_ (Nat.zero_le k)
  intro c hc
  simp only [Memory.below, List.mem_filter, decide_eq_true_eq] at hc
  exact hc.2

theorem wfFrom_run {b : Byte} {lo n hi : Nat} (hb : b ≠ Memory.unlisted) (h : lo + n ≤ hi) :
    Memory.wfFrom lo hi (Memory.run b lo n) = true := by
  induction n generalizing lo with
  | zero => rfl
  | succ n ih =>
    rw [Memory.run, wfFrom_cons]
    exact ⟨le_refl _, by simp only; omega, hb, ih (by omega)⟩

theorem wf_fill (b : Byte) (n : Nat) : Memory.wf n (Memory.fill b n) = true := by
  unfold Memory.fill
  split
  · rfl
  · rename_i hb; exact wfFrom_run hb (by omega)

theorem wf_copy {src dst : Memory} {a n hi : Nat} (h : Memory.wf hi dst = true) (hn : a + n ≤ hi) :
    Memory.wf hi (Memory.copy src a n dst) = true := by
  induction n generalizing a dst with
  | zero => exact h
  | succ n ih =>
    rw [Memory.copy]
    exact ih (wf_write h (by omega)) (by omega)

/-- Two canonical stores that read alike everywhere are equal. -/
theorem eq_of_read_eq {lo hi : Nat} {m n : Memory} (hm : Memory.wfFrom lo hi m = true)
    (hn : Memory.wfFrom lo hi n = true) (h : ∀ a, Memory.read m a = Memory.read n a) : m = n := by
  have unlistedBelow : ∀ (m : Memory) (lo a : Nat), Memory.wfFrom lo hi m = true → a < lo →
      Memory.read m a = Memory.unlisted := by
    intro m
    induction m with
    | nil => intros; rfl
    | cons c m ih =>
      intro lo a h ha
      rw [wfFrom_cons] at h
      rw [read_cons, if_neg (by omega)]
      exact ih _ _ h.2.2.2 (by omega)
  induction m generalizing n lo with
  | nil =>
    cases n with
    | nil => rfl
    | cons d n =>
      rw [wfFrom_cons] at hn
      have := h d.1
      rw [read_cons, if_pos rfl, read_nil] at this
      exact absurd this.symm hn.2.2.1
  | cons c m ih =>
    rw [wfFrom_cons] at hm
    cases n with
    | nil =>
      have := h c.1
      rw [read_cons, if_pos rfl, read_nil] at this
      exact absurd this hm.2.2.1
    | cons d n =>
      rw [wfFrom_cons] at hn
      have hcd : c.1 = d.1 := by
        rcases Nat.lt_trichotomy c.1 d.1 with hlt | he | hlt
        · have := h c.1
          rw [read_cons, if_pos rfl, read_cons, if_neg (by omega), unlistedBelow n _ _ hn.2.2.2 (by omega)] at this
          exact absurd this hm.2.2.1
        · exact he
        · have := h d.1
          rw [read_cons, if_neg (by omega), unlistedBelow m _ _ hm.2.2.2 (by omega), read_cons, if_pos rfl] at this
          exact absurd this.symm hn.2.2.1
      have hcd2 : c.2 = d.2 := by
        have := h c.1
        rwa [read_cons, if_pos rfl, read_cons, if_pos hcd.symm] at this
      have hrest : m = n := by
        refine ih hm.2.2.2 (hcd ▸ hn.2.2.2) ?_
        intro a
        by_cases ha : a ≤ c.1
        · rw [unlistedBelow m _ _ hm.2.2.2 (by omega), unlistedBelow n _ _ hn.2.2.2 (by omega)]
        · have := h a
          rwa [read_cons, if_neg (by omega), read_cons, if_neg (by omega)] at this
      rw [hrest]
      congr 1
      exact Prod.ext hcd hcd2

end Memory

/-- The stores of the reset state are in canonical form. -/
theorem reset_stores_wf : storesOk State.reset = true := by decide

end Sys2Proof.Machine
end

