-- ==== Sys2Proof/Laws/Ops.lean ====
section
/-! SUPPORT. One lemma for each shared operation that says once everything it can do. -/

namespace Sys2Proof.Machine

variable (s : State)

/-! ## Locations -/

/-- A pointer built from a slot number selects that slot. -/
theorem slotOf_slotPointer (x : BitVec 11) (k : Nat) (hk : k < 32) : slotOf (slotPointer x k) = ⟨k, hk⟩ := by
  apply Fin.ext
  show (slotPointer x k).toNat % 32 = k
  have h : (slotPointer x k).toNat = (x ++ BitVec.ofNat 5 k).toNat := rfl
  rw [h, BitVec.toNat_append, Nat.shiftLeft_eq, BitVec.toNat_ofNat]
  have hk' : k % 2 ^ 5 = k := Nat.mod_eq_of_lt (by omega)
  rw [hk', Nat.mul_comm, ← Nat.two_pow_add_eq_or_of_lt (by omega) x.toNat]
  omega

/-- A slot pointer's number: the prefix above the slot. -/
theorem toNat_slotPointer (x : BitVec 11) (k : Nat) (hk : k < 32) : (slotPointer x k).toNat = 32 * x.toNat + k := by
  have h : (slotPointer x k).toNat = (x ++ BitVec.ofNat 5 k).toNat := rfl
  rw [h, BitVec.toNat_append, Nat.shiftLeft_eq, BitVec.toNat_ofNat]
  have hk' : k % 2 ^ 5 = k := Nat.mod_eq_of_lt (by omega)
  rw [hk', Nat.mul_comm, ← Nat.two_pow_add_eq_or_of_lt (by omega) x.toNat]

/-- A pointer with a prefix that is not all 0 is in the control region. -/
theorem slotPointer_high (x : BitVec 11) (k : Nat) (hk : k < 32) (hx : slotPrefixOk x = true) :
    ¬ (slotPointer x k).toNat < Config.persistSize := by
  rw [toNat_slotPointer x k hk]
  simp only [slotPrefixOk, decide_eq_true_eq] at hx
  show ¬ _ < 4096
  omega

/-- A pointer of the persistent region is its 12 bits. -/
theorem toNat_persistPointer (p : BitVec 12) : (persistPointer p).toNat = p.toNat := by
  have h : (persistPointer p).toNat = (0#4 ++ p).toNat := rfl
  rw [h, BitVec.toNat_append]
  simp

theorem persistPointer_low (p : BitVec 12) : (persistPointer p).toNat < Config.persistSize := by
  rw [toNat_persistPointer]; exact p.isLt

/-- The high-byte slots have a result behind them, no other slot has. -/
theorem resultOf_isSome (k : Fin 32) :
    (s.resultOf k).isSome = decide (k = 4 ∨ k = 6 ∨ k = 8 ∨ k = 10 ∨ k = 12) := by
  unfold State.resultOf
  by_cases h4 : k = 4
  · simp [h4]
  by_cases h6 : k = 6
  · simp [h6]
  by_cases h8 : k = 8
  · simp [h8]
  by_cases h10 : k = 10
  · simp [h10]
  by_cases h12 : k = 12
  · simp [h12]
  simp [h4, h6, h8, h10, h12]

/-! ## `RegRead` -/

theorem regRead_persist {p : Half} (h : p.toNat < Config.persistSize) :
    regRead p s = (Memory.read s.mem p.toNat, s) := by
  simp [regRead, h]

theorem regRead_status {p : Half} (h : ¬ p.toNat < Config.persistSize) (hk : slotOf p = 2) :
    regRead p s = (s.slot 2, s.setShort false) := by
  simp [regRead, h, hk]

theorem regRead_latch {p : Half} {w : Half} (h : ¬ p.toNat < Config.persistSize)
    (hw : s.resultOf (slotOf p) = some w) : regRead p s = (hiByte w, s.setBe16 (slotOf p) w) := by
  have h2 : slotOf p ≠ 2 := by
    intro e
    rw [e] at hw
    exact absurd hw (by simp [State.resultOf])
  simp [regRead, h, h2, hw]

theorem regRead_plain {p : Half} (h : ¬ p.toNat < Config.persistSize) (h2 : slotOf p ≠ 2)
    (hw : s.resultOf (slotOf p) = none) : regRead p s = (s.slot (slotOf p), s) := by
  simp [regRead, h, h2, hw]

/-- Everything `RegRead` can do (20_memory.md R61). -/
theorem regRead_spec (p : Half) :
    (p.toNat < Config.persistSize ∧ regRead p s = (Memory.read s.mem p.toNat, s)) ∨
    (¬ p.toNat < Config.persistSize ∧ slotOf p = 2 ∧ regRead p s = (s.slot 2, s.setShort false)) ∨
    (¬ p.toNat < Config.persistSize ∧ ∃ w, s.resultOf (slotOf p) = some w ∧
      regRead p s = (hiByte w, s.setBe16 (slotOf p) w)) ∨
    (¬ p.toNat < Config.persistSize ∧ slotOf p ≠ 2 ∧ s.resultOf (slotOf p) = none ∧
      regRead p s = (s.slot (slotOf p), s)) := by
  by_cases h : p.toNat < Config.persistSize
  · exact .inl ⟨h, regRead_persist s h⟩
  · by_cases h2 : slotOf p = 2
    · exact .inr (.inl ⟨h, h2, regRead_status s h h2⟩)
    · cases hw : s.resultOf (slotOf p) with
      | some w => exact .inr (.inr (.inl ⟨h, w, rfl, regRead_latch s h hw⟩))
      | none => exact .inr (.inr (.inr ⟨h, h2, rfl, regRead_plain s h h2 hw⟩))

/-- `RegRead` changes slots and nothing else. -/
theorem regRead_frame (p : Half) : (regRead p s).2 = { s with slots := (regRead p s).2.slots } := by
  rcases regRead_spec s p with ⟨_, e⟩ | ⟨_, _, e⟩ | ⟨_, w, _, e⟩ | ⟨_, _, _, e⟩ <;> rw [e] <;> rfl

/-! ## `RegWrite` -/

theorem regWrite_persist {p : Half} (b : Byte) (h : p.toNat < Config.persistSize) :
    regWrite p b s = { s with mem := Memory.write s.mem p.toNat b } := by
  simp [regWrite, h]

theorem regWrite_readOnly {p : Half} (b : Byte) (h : ¬ p.toNat < Config.persistSize)
    (hk : (slotOf p).val < Config.roBoundary) : regWrite p b s = s := by
  simp [regWrite, h, hk]

theorem regWrite_nvctl {p : Half} (b : Byte) (h : ¬ p.toNat < Config.persistSize) (hk : slotOf p = 18) :
    regWrite p b s = s.setSlot 18 (nvctlFilter s.cfg b) := by
  simp [regWrite, h, hk, Config.roBoundary]

theorem regWrite_plain {p : Half} (b : Byte) (h : ¬ p.toNat < Config.persistSize)
    (hk : ¬ (slotOf p).val < Config.roBoundary) (h18 : slotOf p ≠ 18) :
    regWrite p b s = writeSlot (slotOf p) b s := by
  simp [regWrite, h, hk, h18]

/-- Everything `RegWrite` can do (20_memory.md R62, R69). -/
theorem regWrite_spec (p : Half) (b : Byte) :
    (p.toNat < Config.persistSize ∧ regWrite p b s = { s with mem := Memory.write s.mem p.toNat b }) ∨
    (¬ p.toNat < Config.persistSize ∧ (slotOf p).val < Config.roBoundary ∧ regWrite p b s = s) ∨
    (¬ p.toNat < Config.persistSize ∧ slotOf p = 18 ∧ regWrite p b s = s.setSlot 18 (nvctlFilter s.cfg b)) ∨
    (¬ p.toNat < Config.persistSize ∧ ¬ (slotOf p).val < Config.roBoundary ∧ slotOf p ≠ 18 ∧
      regWrite p b s = writeSlot (slotOf p) b s) := by
  by_cases h : p.toNat < Config.persistSize
  · exact .inl ⟨h, regWrite_persist s b h⟩
  · by_cases hk : (slotOf p).val < Config.roBoundary
    · exact .inr (.inl ⟨h, hk, regWrite_readOnly s b h hk⟩)
    · by_cases h18 : slotOf p = 18
      · exact .inr (.inr (.inl ⟨h, h18, regWrite_nvctl s b h h18⟩))
      · exact .inr (.inr (.inr ⟨h, hk, h18, regWrite_plain s b h hk h18⟩))

/-- `RegWrite` changes `mem`, slots and commit flags and nothing else. -/
theorem regWrite_frame (p : Half) (b : Byte) :
    regWrite p b s = { s with
      mem := (regWrite p b s).mem
      slots := (regWrite p b s).slots
      timeCommit := (regWrite p b s).timeCommit
      alarmCommit := (regWrite p b s).alarmCommit
      corrCommit := (regWrite p b s).corrCommit } := by
  rcases regWrite_spec s p b with ⟨_, e⟩ | ⟨_, _, e⟩ | ⟨_, _, e⟩ | ⟨_, _, _, e⟩ <;> rw [e] <;> rfl

/-- A slot write of `writeSlot`. -/
theorem slot_writeSlot (k j : Fin 32) (b : Byte) : (writeSlot k b s).slot j = if j = k then b else s.slot j :=
  slot_setSlot s k j b

/-- What a byte written through a pointer leaves behind, location by location. -/
theorem peek_regWrite (p q : Half) (b : Byte) :
    (regWrite p b s).peek q =
      if sameLocation p q then storedByte s.cfg p (s.peek q) b else s.peek q := by
  by_cases hq : q.toNat < Config.persistSize
  · by_cases hp : p.toNat < Config.persistSize
    · simp only [regWrite_persist s b hp, State.peek, hq, if_true, Memory.read_write, sameLocation, hp, storedByte]
      by_cases e : p = q
      · subst e; simp
      · have : ¬ q.toNat = p.toNat := fun h => e (BitVec.eq_of_toNat_eq h.symm)
        simp [e, this]
    · have hs : sameLocation p q = false := by
        simp only [sameLocation, hp, if_false]
        have : ¬ Config.persistSize ≤ q.toNat := by omega
        simp [this]
      rw [hs]
      rcases regWrite_spec s p b with ⟨h, _⟩ | ⟨_, _, e⟩ | ⟨_, _, e⟩ | ⟨_, _, _, e⟩
      · exact absurd h hp
      all_goals (rw [e]; simp only [State.peek, hq, if_true]; rfl)
  · have hq' : Config.persistSize ≤ q.toNat := by omega
    rcases regWrite_spec s p b with ⟨h, e⟩ | ⟨h, hk, e⟩ | ⟨h, hk, e⟩ | ⟨h, hk, h18, e⟩
    · have hs : sameLocation p q = false := by
        simp only [sameLocation, h, if_true]
        have : p ≠ q := fun e => by rw [e] at h; omega
        simpa using this
      rw [e, hs]
      simp only [State.peek, hq, if_false]; rfl
    · rw [e]
      by_cases hs : sameLocation p q
      · simp [hs, storedByte, h, hk]
      · simp [hs]
    · rw [e]
      simp only [State.peek, hq, if_false, slot_setSlot, sameLocation, h, hq', decide_true, Bool.true_and, beq_iff_eq,
        storedByte, hk]
      simp [Config.roBoundary, eq_comm]
    · rw [e]
      simp only [State.peek, hq, if_false, slot_writeSlot, sameLocation, h, hq', decide_true, Bool.true_and,
        beq_iff_eq, storedByte, hk, h18]
      simp [eq_comm]

/-! ## One byte for the bus -/

theorem fetchByte_eq :
    fetchByte s = ((regRead s.bus.ptr s).1, (regRead s.bus.ptr s).2.setPtr (s.bus.ptr + 1#16)) := rfl

theorem storeByte_eq (b : Byte) : storeByte b s = (regWrite s.bus.ptr b s).setPtr (s.bus.ptr + 1#16) := rfl

/-! ## The end of a transaction -/

/-- A pointer of which one byte has come is a draw, any other pointer is kept (40_register_bus.md R143). -/
theorem dropHalfPointer_eq :
    dropHalfPointer s = { s with
      bus := { s.bus with ptr := if s.bus.phase = .addrLo then Config.freePtr s.draws else s.bus.ptr }
      draws := if s.bus.phase = .addrLo then s.draws + 1 else s.draws } := by
  unfold dropHalfPointer
  by_cases h : s.bus.phase = .addrLo
  · rw [if_pos h, if_pos h, if_pos h]; rfl
  · rw [if_neg h, if_neg h, if_neg h]

/-- Everything the end of a transaction does. -/
theorem closeTransaction_eq :
    closeTransaction s = { s with
      bus := { s.bus with
        phase := .idle, inTransfer := false, ack := false
        ptr := if s.bus.phase = .addrLo then Config.freePtr s.draws else s.bus.ptr }
      draws := if s.bus.phase = .addrLo then s.draws + 1 else s.draws } := by
  simp only [closeTransaction, dropHalfPointer_eq]

/-- The protocol reset is the end of the transaction. -/
theorem raiseProtocolReset_eq : raiseProtocolReset s = closeTransaction s := rfl

/-- Everything that taking the slave off the link does (40_register_bus.md R145, R147). -/
theorem detachBus_eq (m : BusMode) :
    detachBus m s = { s with
      bus := { s.bus with
        mode := m, hgRun := false, ack := false, phase := .idle, inTransfer := false
        ptr := if s.bus.phase = .addrLo then Config.freePtr s.draws else s.bus.ptr }
      draws := if s.bus.phase = .addrLo then s.draws + 1 else s.draws } := by
  simp only [detachBus, dropHalfPointer_eq]

/-! ## Initialisation and resets -/

/-- Everything the Wake entry action does (70_reset_and_hazards.md R353). -/
theorem wakeEntry_eq (p : Pins) :
    wakeEntry p s = { s with
      slots := (wakeEntry p s).slots
      dio := { btn := Line.init p.btn, chg0 := Line.init p.chg0, chg1 := Line.init p.chg1, card := p.card,
               btnLast := p.btn, pressCnt := if p.btn then s.cfg.longPressTicks else 0, shortLatched := false }
      longPress := false
      ind := { en := true, sel := .off, mode := .off, level := 0x00#8, cnt := 0 }
      sched := { sub := 0, ms := 0#32, dec := PerConsumer.all 0, flag := PerConsumer.all false }
      loopPos := .ps
      wdtCnt := 0
      auxRail := true } := rfl

/-- The Wake entry action publishes slot 3 and writes no other slot. -/
theorem slot_wakeEntry (p : Pins) (k : Fin 32) :
    (wakeEntry p s).slot k = if k = 3 then packDin s.cfg p.card p.btn p.chg1 p.chg0 else s.slot k :=
  slot_setSlot _ 3 k _

theorem powerOnReset_eq (p : Pins) : powerOnReset p s = wakeEntry p (clearAll s) := rfl

/-- The watchdog reset is the power-on reset but for the seconds counter (70_reset_and_hazards.md R351). -/
theorem raiseWatchdogReset_eq (p : Pins) :
    raiseWatchdogReset p s =
      { powerOnReset p s with
        rtc := { (powerOnReset p s).rtc with count := Config.freeCount (powerOnReset p s).draws }
        draws := (powerOnReset p s).draws + 1 } := rfl

end Sys2Proof.Machine
end

