-- ==== Sys2Proof/Laws/Bus.lean ====
section
/-! SUPPORT. The service of a wire event: the row that the decoder picks runs it, a run of events is run in
pieces, and no event touches what the bus does not own. -/

namespace Sys2Proof.Machine

variable (s : State)

/-- The row that a wire event is in the slave's context runs that event's service. -/
theorem exec_rowOfWire (e : WireEvent) : exec (rowOfWire s.ctx e) s = .next (service e s) := by
  unfold rowOfWire
  by_cases hm : s.bus.mode = .active
  · rw [if_pos (show s.ctx.mode = .active from hm)]
    cases e with
    | start a rw =>
      by_cases ha : a = s.cfg.slaveAddr
      · subst ha
        simp only [show s.ctx.cfg = s.cfg from rfl, if_true]
        cases rw <;> rfl
      · simp only [show s.ctx.cfg = s.cfg from rfl, ha, if_false]; rfl
    | wdata b =>
      simp only [rowOfWdata, State.ctx]
      cases s.bus.phase <;> cases s.bus.dir <;> rfl
    | rack =>
      simp only [rowOfRack, State.ctx]
      cases s.bus.phase <;> cases s.bus.dir <;> rfl
    | rnack =>
      simp only [rowOfRnack, State.ctx]
      cases s.bus.phase <;> cases s.bus.dir <;> rfl
    | stop => rfl
    | busErr => rfl
  · rw [if_neg (show ¬ s.ctx.mode = .active from hm)]; rfl

/-! ## Runs of wire events -/

@[simp] theorem transact_nil : transact [] s = s.respond [] := rfl

theorem transact_cons (e : WireEvent) (es : List WireEvent) :
    transact (e :: es) s = (transact es (service e s)).respond ((service e s).out ++ (transact es (service e s)).out) :=
  rfl

/-- What the slave answered before does not decide what it reads. -/
theorem regRead_respond (p : Half) (r : List Resp) :
    regRead p (s.respond r) = ((regRead p s).1, (regRead p s).2.respond r) := by
  rcases regRead_spec s p with ⟨h, e⟩ | ⟨h, h2, e⟩ | ⟨h, w, hw, e⟩ | ⟨h, h2, hw, e⟩
  · rw [e, regRead_persist _ h]; rfl
  · rw [e, regRead_status _ h h2]; rfl
  · rw [e, regRead_latch (s.respond r) h (w := w) hw]; rfl
  · rw [e, regRead_plain (s.respond r) h h2 hw]; rfl

/-- What the slave answered before does not decide what a write stores. -/
theorem regWrite_respond (p : Half) (b : Byte) (r : List Resp) :
    regWrite p b (s.respond r) = (regWrite p b s).respond r := by
  rcases regWrite_spec s p b with ⟨h, e⟩ | ⟨h, hk, e⟩ | ⟨h, hk, e⟩ | ⟨h, hk, h18, e⟩
  · rw [e, regWrite_persist _ _ h]; rfl
  · rw [e, regWrite_readOnly _ _ h hk]
  · rw [e, regWrite_nvctl _ _ h hk]; rfl
  · rw [e, regWrite_plain _ _ h hk h18]; rfl

/-- The answers to earlier events do not decide what a wire event does. -/
theorem service_respond (e : WireEvent) (r : List Resp) : service e (s.respond r) = service e s := by
  have hc : closeTransaction (s.respond r) = (closeTransaction s).respond r := by
    simp only [closeTransaction_eq]; rfl
  have hw : ∀ b, storeByte b (s.respond r) = (storeByte b s).respond r := by
    intro b
    rw [storeByte_eq, storeByte_eq, show (s.respond r).bus = s.bus from rfl, regWrite_respond]; rfl
  have hf : fetchByte (s.respond r) = ((fetchByte s).1, (fetchByte s).2.respond r) := by
    rw [fetchByte_eq, fetchByte_eq, show (s.respond r).bus = s.bus from rfl, regRead_respond]; rfl
  have ho : openRead (s.respond r) = (openRead s).respond r := by
    simp only [openRead, dropHalfPointer_eq]; rfl
  have hf' : fetchByte ((openRead s).respond r) = ((fetchByte (openRead s)).1, (fetchByte (openRead s)).2.respond r) := by
    rw [fetchByte_eq, fetchByte_eq, show ((openRead s).respond r).bus = (openRead s).bus from rfl, regRead_respond]; rfl
  unfold service serviceStart serviceWdata serviceRack serviceRnack
  rw [show (s.respond r).bus = s.bus from rfl, show (s.respond r).cfg = s.cfg from rfl]
  by_cases hm : s.bus.mode = .active
  · simp only [hm, if_true]
    cases e with
    | start a rw =>
      by_cases ha : a = s.cfg.slaveAddr
      · simp only [ha, if_true]
        cases rw
        · simp only [busStartW, dropHalfPointer_eq]; rfl
        · simp only [busStartR, ho, hf']; rfl
      · simp only [ha, if_false, busStartOther, hc]; rfl
    | wdata b =>
      cases s.bus.phase <;> cases s.bus.dir <;>
        simp only [busIgnore, busAddrHi, busAddrLo, busWrData, busWdataInRead, raiseProtocolReset_eq, hc, hw] <;> rfl
    | rack =>
      cases s.bus.phase <;> cases s.bus.dir <;>
        simp only [busIgnore, busRdAck, busAckInWrite, raiseProtocolReset_eq, hc, hf] <;> rfl
    | rnack =>
      cases s.bus.phase <;> cases s.bus.dir <;>
        simp only [busIgnore, busRdNack, busAckInWrite, raiseProtocolReset_eq, hc] <;> rfl
    | stop => simp only [busStop, hc]; rfl
    | busErr => simp only [busError, raiseProtocolReset_eq, hc]; rfl
  · simp only [hm, if_false]; rfl

/-- The answers to earlier events do not decide what a run of wire events does. -/
theorem transact_respond (es : List WireEvent) (r : List Resp) : transact es (s.respond r) = transact es s := by
  cases es with
  | nil => rfl
  | cons e es => rw [transact_cons, transact_cons, service_respond]

/-- A run of events in two pieces: the responses of both. -/
theorem transact_append (es fs : List WireEvent) :
    transact (es ++ fs) s =
      (transact fs (transact es s)).respond ((transact es s).out ++ (transact fs (transact es s)).out) := by
  induction es generalizing s with
  | nil =>
    rw [List.nil_append, transact_nil, transact_respond]; rfl
  | cons e es ih =>
    rw [List.cons_append, transact_cons, ih, transact_cons, transact_respond]
    simp only [State.respond, List.append_assoc]

/-! ## What a wire event can touch -/

/-- A wire event changes the register space, the commit flags, the bus state, the responses and the draws, and
nothing else. -/
theorem service_frame (e : WireEvent) :
    service e s = { s with
      mem := (service e s).mem
      slots := (service e s).slots
      timeCommit := (service e s).timeCommit
      alarmCommit := (service e s).alarmCommit
      corrCommit := (service e s).corrCommit
      bus := (service e s).bus
      out := (service e s).out
      draws := (service e s).draws } := by
  have hr : ∀ (p : Half) (t : State), (regRead p t).2 = { t with slots := (regRead p t).2.slots } :=
    fun p t => regRead_frame t p
  have hw : ∀ (p : Half) (b : Byte) (t : State), _ := fun p b t => regWrite_frame t p b
  unfold service serviceStart serviceWdata serviceRack serviceRnack
  by_cases hm : s.bus.mode = .active
  · simp only [hm, if_true]
    cases e with
    | start a rw =>
      by_cases ha : a = s.cfg.slaveAddr
      · simp only [ha, if_true]
        cases rw
        · simp only [busStartW, dropHalfPointer_eq]
        · simp only [busStartR, fetchByte_eq, openRead, dropHalfPointer_eq]
          rw [hr]
          rfl
      · simp only [ha, if_false, busStartOther, closeTransaction_eq]; rfl
    | wdata b =>
      cases s.bus.phase <;> cases s.bus.dir <;>
        simp only [busIgnore, busAddrHi, busAddrLo, busWrData, busWdataInRead, raiseProtocolReset_eq,
          closeTransaction_eq, storeByte_eq] <;>
        first
        | rfl
        | (rw [hw]; rfl)
    | rack =>
      cases s.bus.phase <;> cases s.bus.dir <;>
        simp only [busIgnore, busRdAck, busAckInWrite, raiseProtocolReset_eq, closeTransaction_eq, fetchByte_eq] <;>
        first
        | rfl
        | (rw [hr]; rfl)
    | rnack =>
      cases s.bus.phase <;> cases s.bus.dir <;>
        simp only [busIgnore, busRdNack, busAckInWrite, raiseProtocolReset_eq, closeTransaction_eq] <;> rfl
    | stop => simp only [busStop, closeTransaction_eq]; rfl
    | busErr => simp only [busError, raiseProtocolReset_eq, closeTransaction_eq]; rfl
  · simp only [hm, if_false]; rfl

/-- A run of wire events touches no more than each of them. -/
theorem transact_frame (es : List WireEvent) :
    transact es s = { s with
      mem := (transact es s).mem
      slots := (transact es s).slots
      timeCommit := (transact es s).timeCommit
      alarmCommit := (transact es s).alarmCommit
      corrCommit := (transact es s).corrCommit
      bus := (transact es s).bus
      out := (transact es s).out
      draws := (transact es s).draws } := by
  induction es generalizing s with
  | nil => rfl
  | cons e es ih =>
    rw [transact_cons]
    have h1 := ih (service e s)
    have h2 := service_frame s e
    rw [h1]
    simp only [State.respond]
    rw [h2]

end Sys2Proof.Machine
end

