-- ==== Sys2Proof/Laws/Inbox.lean ====
section
/-! SUPPORT. What a step does where the events to come begin with bytes that encode none. -/

namespace Sys2Proof.Machine

theorem pastNonEvent_suffix (e : DecodeError) (bs : List Byte) : pastNonEvent e bs <:+ bs := by
  cases e <;> first | exact List.nil_suffix | exact List.drop_suffix _ _

/-- Where there are bytes, at least one of them is passed over. -/
theorem pastNonEvent_length_lt (e : DecodeError) {bs : List Byte} (h : bs ≠ []) :
    (pastNonEvent e bs).length < bs.length := by
  have := List.length_pos_iff.mpr h
  cases e <;> simp [pastNonEvent] <;> omega

@[simp] theorem pastNonEvent_nil (e : DecodeError) : pastNonEvent e [] = [] := by
  cases e <;> rfl

/-- A step is an event's, or it changes nothing but the events to come. -/
theorem step_cases (s : State) :
    (∃ i rest, decode s.ctx s.inbox = .ok (i, rest) ∧ step s = exec i (s.take rest)) ∨
      ∃ e, decode s.ctx s.inbox = .error e ∧ step s = .next (s.take (pastNonEvent e s.inbox)) := by
  cases h : decode s.ctx s.inbox with
  | ok p => exact .inl ⟨p.1, p.2, rfl, by simp [step, fetchEvent, h]⟩
  | error e => exact .inr ⟨e, rfl, by simp [step, fetchEvent, h, withoutEvent]⟩

end Sys2Proof.Machine
end

