-- ==== Sys2Proof/Laws/Modules.lean ====
section
/-! SUPPORT. The modules' operations: what each can change, and the decimator seen consumer by consumer. -/

namespace Sys2Proof.Machine

variable (s : State)

/-! ## Bits of STATUS -/

theorem slot_setShort (b : Bool) (k : Fin 32) :
    (s.setShort b).slot k = if k = 2 then putBit (s.slot 2) s.cfg.stShortBit b else s.slot k :=
  slot_setSlot s 2 k _

theorem slot_setCrit (b : Bool) (k : Fin 32) :
    (s.setCrit b).slot k = if k = 2 then putBit (s.slot 2) s.cfg.stCritBit b else s.slot k :=
  slot_setSlot s 2 k _

theorem slot_setReason (r : BitVec 3) (k : Fin 32) :
    (s.setReason r).slot k = if k = 2 then putField3 (s.slot 2) s.cfg.stReasonLsb r else s.slot k :=
  slot_setSlot s 2 k _

/-- A 16-bit pair written to slots `k` and `k + 1`. -/
theorem slot_setBe16 (k j : Fin 32) (v : Half) :
    (s.setBe16 k v).slot j = if j = k + 1 then loByte v else if j = k then hiByte v else s.slot j := by
  simp only [State.setBe16, slot_setSlot]

/-- A 32-bit field written to slots `k` to `k + 3`. -/
theorem slot_setBe32 (k j : Fin 32) (v : Word) :
    (s.setBe32 k v).slot j =
      if j = k + 3 then byteOf32 v 3 else if j = k + 2 then byteOf32 v 2
      else if j = k + 1 then byteOf32 v 1 else if j = k then byteOf32 v 0 else s.slot j := by
  simp only [State.setBe32, slot_setSlot]

/-! ## The decimator -/

/-- One consumer's clock leaves every other consumer's counter and flag alone. -/
theorem clockConsumer_get (c : Config) (i j : Consumer) (sc : SchedState) :
    (clockConsumer c i sc).flag.get j =
        (if j = i then sc.flag.get j || (decide (sc.sub = c.phase.get j) && decide (sc.dec.get j = 0))
         else sc.flag.get j) ∧
      (clockConsumer c i sc).dec.get j =
        (if j = i ∧ sc.sub = c.phase.get j then
           if sc.dec.get j = 0 then c.period.get j - 1 else sc.dec.get j - 1
         else sc.dec.get j) ∧
      (clockConsumer c i sc).sub = sc.sub ∧ (clockConsumer c i sc).ms = sc.ms := by
  unfold clockConsumer
  by_cases hj : j = i
  · subst hj
    by_cases h : sc.sub = c.phase.get j
    · by_cases h0 : sc.dec.get j = 0 <;> simp [h, h0]
    · simp [h]
  · by_cases h : sc.sub = c.phase.get i
    · by_cases h0 : sc.dec.get i = 0 <;> simp [h, h0, hj]
    · simp [h, hj]

/-! ## The calibration -/

/-- The truncated identity is the empty table. -/
theorem calibrate_nil (c : Config) (h : c.calTable = []) (ch : Fin 5) (x : Word) :
    calibrate c ch x = x.setWidth 16 := by
  simp [calibrate, h]

/-- A table that lists `f` at a pair, and nowhere else than `f` says, publishes `f` there. -/
theorem calibrate_listed (c : Config) (f : Fin 5 → Word → Half) (ch : Fin 5) (x : Word)
    (hf : ∀ e ∈ c.calTable, e.result = f e.channel e.input) (hmem : ⟨ch, x, f ch x⟩ ∈ c.calTable) :
    calibrate c ch x = f ch x := by
  unfold calibrate
  cases h : c.calTable.find? (fun e => e.channel == ch && e.input == x) with
  | none => simpa using List.find?_eq_none.mp h _ hmem
  | some e =>
    have hk : e.channel = ch ∧ e.input = x := by simpa using List.find?_some h
    have hr := hf e (List.mem_of_find?_eq_some h)
    rw [hk.1, hk.2] at hr
    exact hr

/-- Every total function from a channel and a filtered value to 16 bits is the calibration of some table
(46_boundary_modules.md R310). -/
theorem exists_calTable (c : Config) (f : Fin 5 → Word → Half) :
    ∃ l, ∀ ch x, calibrate { c with calTable := l } ch x = f ch x := by
  refine ⟨(Finset.univ : Finset (Fin 5 × Fin (2 ^ 32))).toList.map
    (fun p => ⟨p.1, BitVec.ofFin p.2, f p.1 (BitVec.ofFin p.2)⟩), fun ch x => ?_⟩
  apply calibrate_listed
  · intro e he
    obtain ⟨p, -, rfl⟩ := List.mem_map.mp he
    rfl
  · exact List.mem_map.mpr ⟨(ch, x.toFin), by simp, rfl⟩

/-! ## What each evaluation can change -/

theorem dioPress_frame : dioPress s = { s with dio := (dioPress s).dio, longPress := (dioPress s).longPress } := by
  unfold dioPress
  dsimp only
  split
  · rfl
  · split <;> rfl

theorem dioShort_frame : dioShort s = { s with slots := (dioShort s).slots, dio := (dioShort s).dio } := by
  unfold dioShort
  split <;> rfl

theorem evalDio_frame (p : Pins) :
    evalDio p s = { s with
      slots := (evalDio p s).slots, dio := (evalDio p s).dio, longPress := (evalDio p s).longPress } := by
  unfold evalDio
  have h1 := dioPress_frame (dioSample p s)
  generalize dioPress (dioSample p s) = t at *
  have h2 := dioShort_frame t
  generalize dioShort t = u at *
  rw [h2, h1]
  rfl

theorem commitTime_frame : commitTime s = { s with rtc := (commitTime s).rtc, timeCommit := false } := by
  unfold commitTime
  split
  · rfl
  · rename_i h
    simp only [Bool.not_eq_true] at h
    rw [← h]

theorem commitAlarm_frame : commitAlarm s = { s with rtc := (commitAlarm s).rtc, alarmCommit := false } := by
  unfold commitAlarm
  split
  · rfl
  · rename_i h
    simp only [Bool.not_eq_true] at h
    rw [← h]

theorem commitCorr_frame : commitCorr s = { s with rtc := (commitCorr s).rtc, corrCommit := false } := by
  unfold commitCorr
  split
  · rfl
  · rename_i h
    simp only [Bool.not_eq_true] at h
    rw [← h]

theorem evalRtc_frame :
    evalRtc s = { s with
      slots := (evalRtc s).slots, rtc := (evalRtc s).rtc, timeCommit := false, alarmCommit := false
      corrCommit := false } := by
  unfold evalRtc
  have h1 := commitTime_frame s
  generalize commitTime s = t at *
  have h2 := commitAlarm_frame t
  generalize commitAlarm t = u at *
  have h3 := commitCorr_frame u
  generalize commitCorr u = v at *
  rw [h3, h2, h1]
  rfl

theorem evalInd_frame : evalInd s = { s with ind := (evalInd s).ind } := by
  unfold evalInd
  split
  · rfl
  · split <;> rfl

theorem evalPs_frame :
    evalPs s = { s with mem := (evalPs s).mem, nv := (evalPs s).nv, slots := (evalPs s).slots, ps := (evalPs s).ps } := by
  unfold evalPs psWriteBack psCommit psReload
  split
  · dsimp only
    split
    · split <;> rfl
    · rfl
  · split
    · rfl
    · split <;> rfl

theorem sampleResult_frame (ch : Channel) (v : Half) :
    sampleResult ch v s = { s with
      filt := (sampleResult ch v s).filt, meas := (sampleResult ch v s).meas, temp := (sampleResult ch v s).temp } := by
  cases ch <;> rfl

theorem oneSecond_frame :
    oneSecond s = { s with rtc := (oneSecond s).rtc, alarmPending := (oneSecond s).alarmPending } := by
  unfold oneSecond rtcAlarm
  split <;> rfl

/-- What the sequencer may change: the run state, the outputs, the bus lifecycle, the indicator, its own counter and
the alarm flag, and slots; no store, no clock, no scheduler. -/
def SeqFrame (t u : State) : Prop :=
  u = { t with
    slots := u.slots, bus := u.bus, draws := u.draws, alarmPending := u.alarmPending, ind := u.ind, run := u.run
    mainRail := u.mainRail, auxRail := u.auxRail, blOn := u.blOn, critCnt := u.critCnt }

theorem seqFrame_refl (t : State) : SeqFrame t t := rfl

theorem seqFrame_trans {t u v : State} (h1 : SeqFrame t u) (h2 : SeqFrame u v) : SeqFrame t v := by
  unfold SeqFrame at *
  rw [h2, h1]

theorem busSuspend_seqFrame (t : State) : SeqFrame t (busSuspend t) := by
  unfold SeqFrame busSuspend; rw [detachBus_eq]

theorem busShutdown_seqFrame (t : State) : SeqFrame t (busShutdown t) := by
  unfold SeqFrame busShutdown; rw [detachBus_eq]

theorem goCharge_seqFrame (t : State) : SeqFrame t (goCharge t) :=
  seqFrame_trans (u := { t with run := .charge, mainRail := false, blOn := false }) rfl (busSuspend_seqFrame _)

theorem goWait_seqFrame (t : State) : SeqFrame t (goWait t) := rfl

theorem goPower_seqFrame (r : BitVec 3) (t : State) : SeqFrame t (goPower r t) := rfl

theorem goPowerOff_seqFrame (t : State) : SeqFrame t (goPowerOff t) := rfl

theorem goSleep_seqFrame (t : State) : SeqFrame t (goSleep t) :=
  seqFrame_trans (u := busShutdown { t with run := .sleep })
    (seqFrame_trans (u := { t with run := .sleep }) rfl (busShutdown_seqFrame _)) rfl

theorem goChargeOrSleep_seqFrame (t : State) : SeqFrame t (goChargeOrSleep t) := by
  unfold goChargeOrSleep
  split
  · exact goCharge_seqFrame t
  · exact goSleep_seqFrame t

theorem critUpdate_seqFrame (t : State) : SeqFrame t (critUpdate t) := by
  unfold critUpdate
  split
  · dsimp only
    split <;> rfl
  · rfl

theorem consumeShutdown_seqFrame (t : State) : SeqFrame t (consumeShutdown t) := by
  unfold consumeShutdown
  split <;> rfl

theorem runWake_seqFrame (t : State) : SeqFrame t (runWake t) := by
  unfold runWake
  split
  · exact seqFrame_trans (u := { t with alarmPending := false }) rfl (goPower_seqFrame _ _)
  · split
    · exact goCharge_seqFrame t
    · split
      · exact goWait_seqFrame t
      · split
        · exact goSleep_seqFrame t
        · exact seqFrame_refl t

theorem runCharge_seqFrame (t : State) : SeqFrame t (runCharge t) := by
  unfold runCharge
  split
  · exact seqFrame_trans (u := { t with alarmPending := false }) rfl (goPower_seqFrame _ _)
  · split
    · exact goSleep_seqFrame t
    · exact seqFrame_refl t

theorem runWait_seqFrame (t : State) : SeqFrame t (runWait t) := by
  unfold runWait
  split
  · exact seqFrame_refl t
  · exact goPower_seqFrame _ t

theorem runPower_seqFrame (lp : Bool) (t : State) : SeqFrame t (runPower lp t) := by
  unfold runPower
  split
  · exact goPowerOff_seqFrame t
  · dsimp only
    have h := seqFrame_trans (critUpdate_seqFrame t) (consumeShutdown_seqFrame (critUpdate t))
    split
    · exact seqFrame_trans h (goChargeOrSleep_seqFrame _)
    · exact h

theorem runPowerOff_seqFrame (t : State) : SeqFrame t (runPowerOff t) := by
  unfold runPowerOff
  split
  · exact seqFrame_refl t
  · exact goChargeOrSleep_seqFrame t

/-- The sequencer's evaluation changes no more than its frame, and the long-press flag is cleared. -/
theorem evalRun_frame : SeqFrame { s with longPress := false } (evalRun s) := by
  have key : ∀ r, r = s.run → ∀ t : State, t = { s with longPress := false } →
      SeqFrame t (match r with
        | .wake => runWake t
        | .charge => runCharge t
        | .wait => runWait t
        | .power => runPower s.longPress t
        | .powerOff => runPowerOff t
        | .sleep => t) := by
    intro r _ t _
    cases r
    · exact runWake_seqFrame t
    · exact runCharge_seqFrame t
    · exact runWait_seqFrame t
    · exact runPower_seqFrame _ t
    · exact runPowerOff_seqFrame t
    · exact seqFrame_refl t
  exact key s.run rfl _ rfl

end Sys2Proof.Machine
end

