-- ==== Sys2Proof/Laws/PerInstr.lean ====
section
/-! SUPPORT. Statements made for every instruction, one lemma for each constructor. EncodeOpens: the bytes of an
instruction open with the byte of one kind of event, so the decoder never rejects them for their first byte. -/

namespace Sys2Proof.Laws

/-- The bytes of the instruction open with an event's byte, under every configuration. -/
def EncodeOpens.Statement (i : Instr) : Prop := ∀ c : Config, ∃ t r, encode c i = Tag.toByte t :: r

/-- The bytes of a wire event open with an event's byte. -/
theorem encodeWire_opens (e : WireEvent) : ∃ t r, encodeWire e = Tag.toByte t :: r := by
  cases e with
  | start a rw => exact ⟨.start, [addressByte a rw], rfl⟩
  | wdata b => exact ⟨.wdata, [b], rfl⟩
  | rack => exact ⟨.rack, [], rfl⟩
  | rnack => exact ⟨.rnack, [], rfl⟩
  | stop => exact ⟨.stop, [], rfl⟩
  | busErr => exact ⟨.busErr, [], rfl⟩

theorem EncodeOpens.startOther (a : BitVec 7) (rw : Dir) : EncodeOpens.Statement (.startOther a rw) := fun _ => ⟨_, _, rfl⟩
theorem EncodeOpens.startW : EncodeOpens.Statement .startW := fun _ => ⟨_, _, rfl⟩
theorem EncodeOpens.startR : EncodeOpens.Statement .startR := fun _ => ⟨_, _, rfl⟩
theorem EncodeOpens.addrHi (b : Byte) : EncodeOpens.Statement (.addrHi b) := fun _ => ⟨_, _, rfl⟩
theorem EncodeOpens.addrLo (b : Byte) : EncodeOpens.Statement (.addrLo b) := fun _ => ⟨_, _, rfl⟩
theorem EncodeOpens.wrData (b : Byte) : EncodeOpens.Statement (.wrData b) := fun _ => ⟨_, _, rfl⟩
theorem EncodeOpens.rdAck : EncodeOpens.Statement .rdAck := fun _ => ⟨_, _, rfl⟩
theorem EncodeOpens.rdNack : EncodeOpens.Statement .rdNack := fun _ => ⟨_, _, rfl⟩
theorem EncodeOpens.stop : EncodeOpens.Statement .stop := fun _ => ⟨_, _, rfl⟩
theorem EncodeOpens.busErr : EncodeOpens.Statement .busErr := fun _ => ⟨_, _, rfl⟩
theorem EncodeOpens.wdataInRead (b : Byte) : EncodeOpens.Statement (.wdataInRead b) := fun _ => ⟨_, _, rfl⟩
theorem EncodeOpens.rackInWrite (e : WireEvent) : EncodeOpens.Statement (.rackInWrite e) := fun _ => encodeWire_opens e
theorem EncodeOpens.notAddressed (e : WireEvent) : EncodeOpens.Statement (.notAddressed e) := fun _ => encodeWire_opens e
theorem EncodeOpens.busInactive (e : WireEvent) : EncodeOpens.Statement (.busInactive e) := fun _ => encodeWire_opens e
theorem EncodeOpens.hangguard : EncodeOpens.Statement .hangguard := fun _ => ⟨_, _, rfl⟩
theorem EncodeOpens.suspend : EncodeOpens.Statement .suspend := fun _ => ⟨_, _, rfl⟩
theorem EncodeOpens.resume : EncodeOpens.Statement .resume := fun _ => ⟨_, _, rfl⟩
theorem EncodeOpens.shutdown : EncodeOpens.Statement .shutdown := fun _ => ⟨_, _, rfl⟩
theorem EncodeOpens.tick : EncodeOpens.Statement .tick := fun _ => ⟨_, _, rfl⟩
theorem EncodeOpens.loopStep (p : Pins) : EncodeOpens.Statement (.loopStep p) := fun _ => ⟨_, _, rfl⟩
theorem EncodeOpens.evalPs : EncodeOpens.Statement .evalPs := fun _ => ⟨_, _, rfl⟩
theorem EncodeOpens.evalRtc : EncodeOpens.Statement .evalRtc := fun _ => ⟨_, _, rfl⟩
theorem EncodeOpens.evalDio (p : Pins) : EncodeOpens.Statement (.evalDio p) := fun _ => ⟨_, _, rfl⟩
theorem EncodeOpens.evalInd : EncodeOpens.Statement .evalInd := fun _ => ⟨_, _, rfl⟩
theorem EncodeOpens.evalRun : EncodeOpens.Statement .evalRun := fun _ => ⟨_, _, rfl⟩
theorem EncodeOpens.wdtExpire (p : Pins) : EncodeOpens.Statement (.wdtExpire p) := fun _ => ⟨_, _, rfl⟩
theorem EncodeOpens.second : EncodeOpens.Statement .second := fun _ => ⟨_, _, rfl⟩
theorem EncodeOpens.sample (ch : Channel) (v : Half) : EncodeOpens.Statement (.sample ch v) := fun _ => ⟨_, _, rfl⟩
theorem EncodeOpens.powerOn (p : Pins) : EncodeOpens.Statement (.powerOn p) := fun _ => ⟨_, _, rfl⟩
theorem EncodeOpens.wakeup (p : Pins) : EncodeOpens.Statement (.wakeup p) := fun _ => ⟨_, _, rfl⟩
theorem EncodeOpens.write8 (a : Half) (v : Byte) : EncodeOpens.Statement (.write8 a v) := fun _ => ⟨_, _, rfl⟩
theorem EncodeOpens.write16 (a : Half) (v : Half) : EncodeOpens.Statement (.write16 a v) := fun _ => ⟨_, _, rfl⟩
theorem EncodeOpens.write32 (a : Half) (v : Word) : EncodeOpens.Statement (.write32 a v) := fun _ => ⟨_, _, rfl⟩
theorem EncodeOpens.read8 (a : Half) : EncodeOpens.Statement (.read8 a) := fun _ => ⟨_, _, rfl⟩
theorem EncodeOpens.read16 (a : Half) : EncodeOpens.Statement (.read16 a) := fun _ => ⟨_, _, rfl⟩
theorem EncodeOpens.read32 (a : Half) : EncodeOpens.Statement (.read32 a) := fun _ => ⟨_, _, rfl⟩
theorem EncodeOpens.nvwrite (a : Half) (d : List Byte) : EncodeOpens.Statement (.nvwrite a d) := fun _ => ⟨_, _, rfl⟩
theorem EncodeOpens.nvread (a : Half) (n : Nat) : EncodeOpens.Statement (.nvread a n) := fun _ => ⟨_, _, rfl⟩
theorem EncodeOpens.setptr (a : Half) : EncodeOpens.Statement (.setptr a) := fun _ => ⟨_, _, rfl⟩
theorem EncodeOpens.ptrPersist (p : BitVec 12) (acc : Access) : EncodeOpens.Statement (.ptrPersist p acc) := fun _ => ⟨_, _, rfl⟩
theorem EncodeOpens.slotId (x : BitVec 11) (acc : Access) : EncodeOpens.Statement (.slotId x acc) := fun _ => ⟨_, _, rfl⟩
theorem EncodeOpens.slotVersion (x : BitVec 11) (acc : Access) : EncodeOpens.Statement (.slotVersion x acc) :=
    fun _ => ⟨_, _, rfl⟩
theorem EncodeOpens.slotStatus (x : BitVec 11) (acc : Access) : EncodeOpens.Statement (.slotStatus x acc) := fun _ => ⟨_, _, rfl⟩
theorem EncodeOpens.slotDin (x : BitVec 11) (acc : Access) : EncodeOpens.Statement (.slotDin x acc) := fun _ => ⟨_, _, rfl⟩
theorem EncodeOpens.slotMeas0H (x : BitVec 11) (acc : Access) : EncodeOpens.Statement (.slotMeas0H x acc) := fun _ => ⟨_, _, rfl⟩
theorem EncodeOpens.slotMeas0L (x : BitVec 11) (acc : Access) : EncodeOpens.Statement (.slotMeas0L x acc) := fun _ => ⟨_, _, rfl⟩
theorem EncodeOpens.slotMeas1H (x : BitVec 11) (acc : Access) : EncodeOpens.Statement (.slotMeas1H x acc) := fun _ => ⟨_, _, rfl⟩
theorem EncodeOpens.slotMeas1L (x : BitVec 11) (acc : Access) : EncodeOpens.Statement (.slotMeas1L x acc) := fun _ => ⟨_, _, rfl⟩
theorem EncodeOpens.slotMeas2H (x : BitVec 11) (acc : Access) : EncodeOpens.Statement (.slotMeas2H x acc) := fun _ => ⟨_, _, rfl⟩
theorem EncodeOpens.slotMeas2L (x : BitVec 11) (acc : Access) : EncodeOpens.Statement (.slotMeas2L x acc) := fun _ => ⟨_, _, rfl⟩
theorem EncodeOpens.slotMeas3H (x : BitVec 11) (acc : Access) : EncodeOpens.Statement (.slotMeas3H x acc) := fun _ => ⟨_, _, rfl⟩
theorem EncodeOpens.slotMeas3L (x : BitVec 11) (acc : Access) : EncodeOpens.Statement (.slotMeas3L x acc) := fun _ => ⟨_, _, rfl⟩
theorem EncodeOpens.slotTempH (x : BitVec 11) (acc : Access) : EncodeOpens.Statement (.slotTempH x acc) := fun _ => ⟨_, _, rfl⟩
theorem EncodeOpens.slotTempL (x : BitVec 11) (acc : Access) : EncodeOpens.Statement (.slotTempL x acc) := fun _ => ⟨_, _, rfl⟩
theorem EncodeOpens.slotBl (x : BitVec 11) (acc : Access) : EncodeOpens.Statement (.slotBl x acc) := fun _ => ⟨_, _, rfl⟩
theorem EncodeOpens.slotWk (x : BitVec 11) (acc : Access) : EncodeOpens.Statement (.slotWk x acc) := fun _ => ⟨_, _, rfl⟩
theorem EncodeOpens.slotShdn (x : BitVec 11) (acc : Access) : EncodeOpens.Statement (.slotShdn x acc) := fun _ => ⟨_, _, rfl⟩
theorem EncodeOpens.slotPress (x : BitVec 11) (acc : Access) : EncodeOpens.Statement (.slotPress x acc) := fun _ => ⟨_, _, rfl⟩
theorem EncodeOpens.slotNvctl (x : BitVec 11) (acc : Access) : EncodeOpens.Statement (.slotNvctl x acc) := fun _ => ⟨_, _, rfl⟩
theorem EncodeOpens.slotTime3 (x : BitVec 11) (acc : Access) : EncodeOpens.Statement (.slotTime3 x acc) := fun _ => ⟨_, _, rfl⟩
theorem EncodeOpens.slotTime2 (x : BitVec 11) (acc : Access) : EncodeOpens.Statement (.slotTime2 x acc) := fun _ => ⟨_, _, rfl⟩
theorem EncodeOpens.slotTime1 (x : BitVec 11) (acc : Access) : EncodeOpens.Statement (.slotTime1 x acc) := fun _ => ⟨_, _, rfl⟩
theorem EncodeOpens.slotTime0 (x : BitVec 11) (acc : Access) : EncodeOpens.Statement (.slotTime0 x acc) := fun _ => ⟨_, _, rfl⟩
theorem EncodeOpens.slotAlarm3 (x : BitVec 11) (acc : Access) : EncodeOpens.Statement (.slotAlarm3 x acc) := fun _ => ⟨_, _, rfl⟩
theorem EncodeOpens.slotAlarm2 (x : BitVec 11) (acc : Access) : EncodeOpens.Statement (.slotAlarm2 x acc) := fun _ => ⟨_, _, rfl⟩
theorem EncodeOpens.slotAlarm1 (x : BitVec 11) (acc : Access) : EncodeOpens.Statement (.slotAlarm1 x acc) := fun _ => ⟨_, _, rfl⟩
theorem EncodeOpens.slotAlarm0 (x : BitVec 11) (acc : Access) : EncodeOpens.Statement (.slotAlarm0 x acc) := fun _ => ⟨_, _, rfl⟩
theorem EncodeOpens.slotCorr3 (x : BitVec 11) (acc : Access) : EncodeOpens.Statement (.slotCorr3 x acc) := fun _ => ⟨_, _, rfl⟩
theorem EncodeOpens.slotCorr2 (x : BitVec 11) (acc : Access) : EncodeOpens.Statement (.slotCorr2 x acc) := fun _ => ⟨_, _, rfl⟩
theorem EncodeOpens.slotCorr1 (x : BitVec 11) (acc : Access) : EncodeOpens.Statement (.slotCorr1 x acc) := fun _ => ⟨_, _, rfl⟩
theorem EncodeOpens.slotCorr0 (x : BitVec 11) (acc : Access) : EncodeOpens.Statement (.slotCorr0 x acc) := fun _ => ⟨_, _, rfl⟩
theorem EncodeOpens.slotSlot31 (x : BitVec 11) (acc : Access) : EncodeOpens.Statement (.slotSlot31 x acc) := fun _ => ⟨_, _, rfl⟩
theorem EncodeOpens.shdnRequest : EncodeOpens.Statement .shdnRequest := fun _ => ⟨_, _, rfl⟩
theorem EncodeOpens.nvCommit : EncodeOpens.Statement .nvCommit := fun _ => ⟨_, _, rfl⟩
theorem EncodeOpens.nvReload : EncodeOpens.Statement .nvReload := fun _ => ⟨_, _, rfl⟩
theorem EncodeOpens.nvOther (v : Byte) : EncodeOpens.Statement (.nvOther v) := fun _ => ⟨_, _, rfl⟩
theorem EncodeOpens.statusFields (crit short : Bool) (reason : BitVec 3) : EncodeOpens.Statement (.statusFields crit short reason) :=
    fun _ => ⟨_, _, rfl⟩
theorem EncodeOpens.dinFields (card button chg1 chg0 : Bool) : EncodeOpens.Statement (.dinFields card button chg1 chg0) :=
    fun _ => ⟨_, _, rfl⟩
theorem EncodeOpens.wkFields (alarm chgStart chgDone : Bool) (x : Byte) : EncodeOpens.Statement (.wkFields alarm chgStart chgDone x) :=
    fun _ => ⟨_, _, rfl⟩
theorem EncodeOpens.versionFields (major minor : BitVec 4) : EncodeOpens.Statement (.versionFields major minor) :=
    fun _ => ⟨_, _, rfl⟩

end Sys2Proof.Laws
end

