-- ==== Sys2Proof/Tests/Slice0.lean ====
section
/-! SUPPORT. Tests: an ill-formed term for each check of WellFormed, each constructor's decoding from bytes written out
by hand, one step of each instruction on a small state (expected results from spec/95_test_vectors.md, or worked out
by hand from the rule named), and for each obligation a state and operands that meet its hypotheses. -/

namespace Sys2Proof.Tests

open Sys2Proof Sys2Proof.Machine

/-! ## Helpers -/

/-- The state after an instruction; the state itself where there is no next state. -/
def ran (i : Instr) (s : State) : State :=
  match exec i s with
  | .next t => t
  | .fault _ => s
  | .refused _ => s

/-- The event that bytes decode to, with no byte left over. -/
def reads (c : Ctx) (bs : List Byte) : Option Instr :=
  match decode c bs with
  | .ok (i, []) => some i
  | .ok (_, _ :: _) => none
  | .error _ => none

/-- The name of the error that bytes decode to. -/
def rejects (c : Ctx) (bs : List Byte) : Option DecodeError :=
  match decode c bs with
  | .ok _ => none
  | .error e => some e

/-- No pin high. -/
def noPins : Pins := ⟨false, false, false, false⟩

/-- The button down, no other pin high. -/
def btnDown : Pins := ⟨true, false, false, false⟩

/-- The state PWR0 of 95_test_vectors.md section 0, but for `mem` and `nv`, which list nothing. -/
def pwr0 : State :=
  { State.reset with
    slots := #v[0x01, 0x10, 0x11, 0, 0, 0, 0, 0, 0, 0, 0, 0, 0, 0, 0x80, 0, 0, 0x32, 0, 0, 0, 0, 0, 0, 0, 0, 0, 0, 0,
                0, 0, 0]
    bus := { phase := .idle, ptr := 0x0000#16, inTransfer := false, dir := .r, addrHi := 0x00#8, ack := false,
             mode := .active, hgRun := true }
    sched := { sub := 0, ms := 511#32, dec := PerConsumer.all 9, flag := PerConsumer.all false }
    dio := { btn := ⟨false, false⟩, chg0 := ⟨false, false⟩, chg1 := ⟨false, false⟩, card := false, btnLast := false,
             pressCnt := 249, shortLatched := true }
    meas := #v[0#16, 0#16, 3524#16, 0#16]
    filt := { State.reset.filt with sum := #v[0#32, 0#32, 56399#32, 0#32] }
    run := .power, mainRail := true, auxRail := true, blOn := true }

/-- PWR0 inside a transaction, in a phase and direction, with a pointer. -/
def inBus (ph : Phase) (d : Dir) (p : Half) : State :=
  { pwr0 with bus := { pwr0.bus with phase := ph, dir := d, ptr := p, inTransfer := true, ack := true } }

/-- PWR0 with the bus off the link. -/
def offBus : State := { pwr0 with bus := { pwr0.bus with mode := .suspended, hgRun := false } }

/-- PWR0 asleep. -/
def asleep : State :=
  { pwr0 with run := .sleep, mainRail := false, auxRail := false, blOn := false, halted := true
              ind := { pwr0.ind with en := false }
              bus := { pwr0.bus with mode := .disabled, hgRun := false } }

/-- PWR0 with one slot set. -/
def withSlot (k : Fin 32) (b : Byte) : State := pwr0.setSlot k b

/-- PWR0 with another clock. -/
def withRtc (r : RtcState) : State := { pwr0 with rtc := r }

/-- A clock with correction enabled at a correction and a correction counter. -/
def correcting (corr cnt : Word) : State :=
  withRtc { pwr0.rtc with count := 100#32, corrEn := true, corr := corr, corrCnt := cnt }

/-- PWR0 with another indicator, the charge lines giving the state of the code. -/
def withInd (chg1 chg0 : Bool) (i : IndState) : State :=
  { pwr0 with ind := i, dio := { pwr0.dio with chg0 := ⟨chg0, chg0⟩, chg1 := ⟨chg1, chg1⟩ } }

/-- A sequencer state: the run state, the two charge lines, the button, and the battery's measurement. -/
def sequencing (r : RunState) (chg1 chg0 btn : Bool) (v : Half) : State :=
  { pwr0 with run := r, meas := #v[0#16, 0#16, v, 0#16]
              dio := { pwr0.dio with btn := ⟨btn, btn⟩, chg0 := ⟨chg0, chg0⟩, chg1 := ⟨chg1, chg1⟩ } }

/-- The context of the bus in a phase and direction under CFG0. -/
def ctxAt (ph : Phase) (d : Dir) : Ctx := { tableCtx with phase := ph, dir := d }

/-- The context of a suspended bus under CFG0. -/
def ctxOff : Ctx := { tableCtx with mode := .suspended }

/-! ## WellFormed: an ill-formed term for each check -/

/-- Bus-event rows outside the context that 40_register_bus.md R151 gives them. -/
theorem test_ill_formed_bus_rows :
    [(Instr.startOther 0x12#7 .w, tableCtx), (.startOther 0x50#7 .w, ctxOff), (.startW, ctxOff), (.startR, ctxOff),
     (.addrHi 0#8, tableCtx), (.addrHi 0#8, { ctxOff with phase := .addrHi }), (.addrLo 0#8, ctxAt .addrHi .w),
     (.addrLo 0#8, { ctxOff with phase := .addrLo }),
     (.wrData 0#8, ctxAt .data .r), (.wrData 0#8, ctxAt .idle .w), (.wrData 0#8, { ctxOff with phase := .data }),
     (.rdAck, ctxAt .data .w), (.rdAck, ctxAt .idle .r), (.rdNack, ctxAt .data .w), (.rdNack, ctxAt .idle .r),
     (.stop, ctxOff), (.busErr, ctxOff), (.wdataInRead 0#8, ctxAt .data .w), (.wdataInRead 0#8, ctxAt .idle .r),
     (.rackInWrite .rack, ctxAt .data .r), (.rackInWrite .stop, ctxAt .addrHi .w), (.rackInWrite .rack, ctxOff),
     (.notAddressed .rack, ctxAt .data .r), (.notAddressed .stop, tableCtx), (.notAddressed .rack, ctxOff),
     (.busInactive .stop, tableCtx)].all (fun p => !p.1.wellFormed p.2) = true := by decide

/-- Operands out of range: a sample of 13 bits, a read of no byte, a read whose count has 17 bits, a slot row's
prefix that is a pointer below 4096, a sentinel as `NV_OTHER`, a named bit of `WK` among the unnamed ones. -/
theorem test_ill_formed_operands :
    [Instr.sample (.analog 0) 0x1000#16, .sample .temperature 0x1000#16, .nvread 0x000#16 0,
     .nvread 0x000#16 65536, .slotId 127#11 .read, .slotBl 0#11 .point, .slotSlot31 127#11 .read, .nvOther 0x57#8, .nvOther 0x52#8, .wkFields false false false 0x01#8, .wkFields false false false 0x02#8,
     .wkFields false false false 0x04#8].all (fun i => !i.wellFormed tableCtx) = true := by decide

/-- The prefix check stands on every slot's row. -/
theorem test_ill_formed_slot_rows :
    (List.range 32).all (fun k => !(slotRow k 127#11 .point).wellFormed tableCtx &&
      (slotRow k 128#11 .point).wellFormed tableCtx) = true := by decide

/-- Configurations that 00_scope.md R7 shuts out. -/
theorem test_ill_formed_configs :
    [{ Config.cfg0 with shdnSentinel := 0#8 }, { Config.cfg0 with nvCmdCommit := 0x52#8 },
     { Config.cfg0 with nvCmdReload := 1#8 }, { Config.cfg0 with nvBatch := 0 }, { Config.cfg0 with stShortBit := 2 },
     { Config.cfg0 with reasonAlarm := 1#3 }, { Config.cfg0 with diBtnBit := 1 }, { Config.cfg0 with wkAlarmBit := 2 },
     { Config.cfg0 with critTimeout := 0 }, { Config.cfg0 with phase := ⟨0, 1, 2, 3, 3⟩ },
     { Config.cfg0 with ticksPerMs := 4 }, { Config.cfg0 with period := ⟨0, 1, 1, 1, 1⟩ },
     { Config.cfg0 with indMax := 0#8 }, { Config.cfg0 with adcBits := 17 }, { Config.cfg0 with tempDepth := 0 }].all
      (fun c => !c.wf) = true := by decide

theorem test_cfg0_wf : Config.cfg0.wf = true := by decide

/-! ## Decoding (30_encoding.md): bytes written out by hand -/

/-- The address bytes (R91): 0x24 = 0010010 0, 0x25 = 0010010 1, 0xA0 = 1010000 0. -/
theorem test_decode_starts :
    reads tableCtx [0x01#8, 0b00100100#8] = some .startW ∧ reads tableCtx [0x01#8, 0b00100101#8] = some .startR ∧
    reads tableCtx [0x01#8, 0b10100000#8] = some (.startOther 0x50#7 .w) ∧
    reads tableCtx [0x01#8, 0b10100001#8] = some (.startOther 0x50#7 .r) := by decide

/-- One byte, five rows, by the phase it comes in (40_register_bus.md R151, column WDATA). -/
theorem test_decode_wdata :
    reads (ctxAt .addrHi .w) [0x02#8, 0x10#8] = some (.addrHi 0x10#8) ∧
    reads (ctxAt .addrLo .w) [0x02#8, 0x13#8] = some (.addrLo 0x13#8) ∧
    reads (ctxAt .data .w) [0x02#8, 0x40#8] = some (.wrData 0x40#8) ∧
    reads (ctxAt .data .r) [0x02#8, 0x33#8] = some (.wdataInRead 0x33#8) ∧
    reads (ctxAt .idle .w) [0x02#8, 0x01#8] = some (.notAddressed (.wdata 0x01#8)) := by decide

/-- The events without operand bytes (R151, the other columns). -/
theorem test_decode_acks :
    reads (ctxAt .data .r) [0x03#8] = some .rdAck ∧ reads (ctxAt .data .r) [0x04#8] = some .rdNack ∧
    reads (ctxAt .data .w) [0x03#8] = some (.rackInWrite .rack) ∧
    reads (ctxAt .addrHi .w) [0x04#8] = some (.rackInWrite .rnack) ∧
    reads tableCtx [0x03#8] = some (.notAddressed .rack) ∧ reads tableCtx [0x05#8] = some .stop ∧
    reads tableCtx [0x06#8] = some .busErr ∧ reads ctxOff [0x05#8] = some (.busInactive .stop) ∧
    reads ctxOff [0x01#8, 0x24#8] = some (.busInactive (.start 0x12#7 .w)) := by decide

theorem test_decode_internal :
    [0x10#8, 0x11#8, 0x12#8, 0x13#8, 0x14#8, 0x16#8, 0x17#8, 0x19#8, 0x1A#8, 0x1C#8].map (fun b => reads tableCtx [b]) =
      [some .hangguard, some .suspend, some .resume, some .shutdown, some .tick, some .evalPs, some .evalRtc,
       some .evalInd, some .evalRun, some .second] := by decide

/-- The events with pins: bit 0 the button, bits 1 and 2 the charge lines, bit 3 the card. -/
theorem test_decode_pins :
    reads tableCtx [0x15#8, 0b0001#8] = some (.loopStep ⟨true, false, false, false⟩) ∧
    reads tableCtx [0x18#8, 0b0010#8] = some (.evalDio ⟨false, true, false, false⟩) ∧
    reads tableCtx [0x1B#8, 0b0100#8] = some (.wdtExpire ⟨false, false, true, false⟩) ∧
    reads tableCtx [0x1E#8, 0b1000#8] = some (.powerOn ⟨false, false, false, true⟩) ∧
    reads tableCtx [0x1F#8, 0b0000#8] = some (.wakeup noPins) := by decide

/-- Samples of 4000 = 0x0FA0 for channel 2 and of 800 = 0x0320 for the temperature. -/
theorem test_decode_sample :
    reads tableCtx [0x1D#8, 0x02#8, 0x0F#8, 0xA0#8] = some (.sample (.analog 2) 4000#16) ∧
    reads tableCtx [0x1D#8, 0x04#8, 0x03#8, 0x20#8] = some (.sample .temperature 800#16) := by decide

/-- The composite operations (30_encoding.md R110). -/
theorem test_decode_host_ops :
    reads tableCtx [0x20#8, 0x10#8, 0x0E#8, 0x40#8] = some (.write8 0x100E#16 0x40#8) ∧
    reads tableCtx [0x21#8, 0x10#8, 0x0E#8, 0x40#8, 0x01#8] = some (.write16 0x100E#16 0x4001#16) ∧
    reads tableCtx [0x22#8, 0x10#8, 0x13#8, 0x00#8, 0x00#8, 0x03#8, 0xE8#8] =
      some (.write32 0x1013#16 0x000003E8#32) ∧
    reads tableCtx [0x23#8, 0x10#8, 0x02#8] = some (.read8 0x1002#16) ∧
    reads tableCtx [0x24#8, 0x10#8, 0x08#8] = some (.read16 0x1008#16) ∧
    reads tableCtx [0x25#8, 0x10#8, 0x13#8] = some (.read32 0x1013#16) ∧
    reads tableCtx [0x26#8, 0x0F#8, 0xFD#8, 0x00#8, 0x02#8, 0xAA#8, 0xBB#8] =
      some (.nvwrite 0x0FFD#16 [0xAA#8, 0xBB#8]) ∧
    reads tableCtx [0x27#8, 0x0F#8, 0xFE#8, 0x00#8, 0x02#8] = some (.nvread 0x0FFE#16 2) ∧
    reads tableCtx [0x28#8, 0x12#8, 0x34#8] = some (.setptr 0x1234#16) := by decide

/-- Pointer words (20_memory.md R60): the persistent region's last byte, and slots 0 to 15 at their canonical
addresses. -/
theorem test_decode_slots_low :
    reads tableCtx [0x30#8, 0x0F#8, 0xFF#8, 0x01#8, 0x00#8] = some (.ptrPersist 0xFFF#12 .read) ∧
    [0x00#8, 0x01#8, 0x02#8, 0x03#8, 0x04#8, 0x05#8, 0x06#8, 0x07#8, 0x08#8, 0x09#8, 0x0A#8, 0x0B#8, 0x0C#8, 0x0D#8,
     0x0E#8, 0x0F#8].map (fun b => reads tableCtx [0x30#8, 0x10#8, b, 0x01#8, 0x00#8]) =
      [some (.slotId 0x080#11 .read), some (.slotVersion 0x080#11 .read), some (.slotStatus 0x080#11 .read),
       some (.slotDin 0x080#11 .read), some (.slotMeas0H 0x080#11 .read), some (.slotMeas0L 0x080#11 .read),
       some (.slotMeas1H 0x080#11 .read), some (.slotMeas1L 0x080#11 .read), some (.slotMeas2H 0x080#11 .read),
       some (.slotMeas2L 0x080#11 .read), some (.slotMeas3H 0x080#11 .read), some (.slotMeas3L 0x080#11 .read),
       some (.slotTempH 0x080#11 .read), some (.slotTempL 0x080#11 .read), some (.slotBl 0x080#11 .read),
       some (.slotWk 0x080#11 .read)] := by decide

/-- Slots 16 to 31 at their highest aliases, 0xFFF0 to 0xFFFF: bits 15:5 all 1. -/
theorem test_decode_slots_high :
    [0xF0#8, 0xF1#8, 0xF2#8, 0xF3#8, 0xF4#8, 0xF5#8, 0xF6#8, 0xF7#8, 0xF8#8, 0xF9#8, 0xFA#8, 0xFB#8, 0xFC#8, 0xFD#8,
     0xFE#8, 0xFF#8].map (fun b => reads tableCtx [0x30#8, 0xFF#8, b, 0x02#8, 0x5A#8]) =
      [some (.slotShdn 0x7FF#11 (.write 0x5A#8)), some (.slotPress 0x7FF#11 (.write 0x5A#8)),
       some (.slotNvctl 0x7FF#11 (.write 0x5A#8)), some (.slotTime3 0x7FF#11 (.write 0x5A#8)),
       some (.slotTime2 0x7FF#11 (.write 0x5A#8)), some (.slotTime1 0x7FF#11 (.write 0x5A#8)),
       some (.slotTime0 0x7FF#11 (.write 0x5A#8)), some (.slotAlarm3 0x7FF#11 (.write 0x5A#8)),
       some (.slotAlarm2 0x7FF#11 (.write 0x5A#8)), some (.slotAlarm1 0x7FF#11 (.write 0x5A#8)),
       some (.slotAlarm0 0x7FF#11 (.write 0x5A#8)), some (.slotCorr3 0x7FF#11 (.write 0x5A#8)),
       some (.slotCorr2 0x7FF#11 (.write 0x5A#8)), some (.slotCorr1 0x7FF#11 (.write 0x5A#8)),
       some (.slotCorr0 0x7FF#11 (.write 0x5A#8)), some (.slotSlot31 0x7FF#11 (.write 0x5A#8))] := by decide

/-- Trigger bytes (30_encoding.md R103) and layouts (R99 to R102): 0x91 is crit, short, reason 001; 0x0D is card,
button, code 01; 0xE5 is alarm and charge-done over 0xE0; 0x10 is version 1.0. -/
theorem test_decode_bytes :
    reads tableCtx [0x31#8, 0x0F#8] = some .shdnRequest ∧ reads tableCtx [0x32#8, 0x57#8] = some .nvCommit ∧
    reads tableCtx [0x32#8, 0x52#8] = some .nvReload ∧ reads tableCtx [0x32#8, 0x33#8] = some (.nvOther 0x33#8) ∧
    reads tableCtx [0x33#8, 0b10010001#8] = some (.statusFields true true 0b001#3) ∧
    reads tableCtx [0x34#8, 0b00001101#8] = some (.dinFields true true false true) ∧
    reads tableCtx [0x35#8, 0b11100101#8] = some (.wkFields true false true 0xE0#8) ∧
    reads tableCtx [0x36#8, 0b00010000#8] = some (.versionFields 1#4 0#4) := by decide

/-- Every way bytes are rejected, by name. -/
theorem test_decode_rejects :
    rejects tableCtx [] = some .noBytes ∧ rejects tableCtx [0xFF#8] = some (.unknownTag 0xFF#8) ∧
    rejects tableCtx [0x22#8, 0x10#8] = some (.truncated .write32) ∧
    rejects tableCtx [0x1D#8, 0x05#8, 0#8, 0#8] = some (.badChannel 0x05#8) ∧
    rejects tableCtx [0x1D#8, 0x00#8, 0x10#8, 0x00#8] = some (.sampleTooWide 0x1000#16) ∧
    rejects tableCtx [0x30#8, 0x10#8, 0x00#8, 0x03#8, 0x00#8] = some (.badAccess 3#8 0#8) ∧
    rejects tableCtx [0x27#8, 0x0F#8, 0xFF#8, 0x00#8, 0x00#8] = some (.emptyRead 0x0FFF#16) := by decide

/-- Bytes to which the spec gives an effect and no row of their own: a byte to `SHDN` that is not the sentinel is stored
(30_encoding.md R103), bits of `STATUS` and `DIN` that read 0 are not read (R99, R100), a transfer may run past 4095
(70_reset_and_hazards.md R374). -/
theorem test_decode_total :
    reads tableCtx [0x31#8, 0x55#8] = some (.slotShdn 0x080#11 (.write 0x55#8)) ∧
    reads tableCtx [0x33#8, 0xFA#8] = some (.statusFields true true 0b010#3) ∧
    reads tableCtx [0x34#8, 0xF2#8] = some (.dinFields false false true false) ∧
    reads tableCtx [0x15#8, 0xF1#8] = some (.loopStep ⟨true, false, false, false⟩) ∧
    reads tableCtx [0x26#8, 0x0F#8, 0xFF#8, 0x00#8, 0x02#8, 0xAA#8, 0xBB#8] =
      some (.nvwrite 0x0FFF#16 [0xAA#8, 0xBB#8]) ∧
    reads tableCtx [0x27#8, 0x0F#8, 0xFF#8, 0x00#8, 0x02#8] = some (.nvread 0x0FFF#16 2) := by decide

/-- Bytes that encode no event are passed over, and the event after them stays to come (assumption log 2). -/
theorem test_step_passes_over :
    step { pwr0 with inbox := [0xFF#8, 0x14#8] } = .next { pwr0 with inbox := [0x14#8] } ∧
    step { pwr0 with inbox := [0x30#8, 0x10#8, 0x00#8, 0x03#8, 0x00#8, 0x14#8] } = .next { pwr0 with inbox := [0x14#8] } ∧
    step { pwr0 with inbox := [0x22#8, 0x10#8] } = .next pwr0 := ⟨rfl, rfl, rfl⟩

/-- A count of bytes that 16 bits cannot give. -/
theorem test_ill_formed_long_write (d : List Byte) (h : d.length = 65536) :
    (Instr.nvwrite 0#16 d).wellFormed tableCtx = false := by simp [Instr.wellFormed, h]

/-- Words of the opcode table (assumption log 20). -/
theorem test_table_words :
    decodeTableWord 8 0x24 = some .startW ∧ decodeTableWord 8 0x25 = some .startR ∧
    decodeTableWord 8 0x0F = some .shdnRequest ∧ decodeTableWord 8 0x57 = some .nvCommit ∧
    decodeTableWord 8 0x52 = some .nvReload ∧ decodeTableWord 16 0x0FFF = some (.ptrPersist 0xFFF#12 .point) ∧
    decodeTableWord 16 0x1010 = some (.slotShdn 0x080#11 .point) ∧ decodeTableWord 0 0 = none := by decide

/-- A placed table word is the very next event that a step runs. -/
theorem test_placed_word_runs :
    (match step ((State.reset).withFetchWord 8 0x24) with
      | .next t => some (t.bus.phase, t.bus.inTransfer, t.out)
      | .fault _ => none
      | .refused _ => none) = some (.addrHi, true, [.ack]) := by decide

/-! ## Bus events (95_test_vectors.md sections 2.1 to 2.4) -/

theorem test_startOther :
    let t := ran (.startOther 0x50#7 .r) (inBus .data .w 0x1014#16)
    t.bus.phase = .idle ∧ t.bus.inTransfer = false ∧ t.bus.ptr = 0x1014#16 ∧ t.out = [.nack] := by decide

theorem test_startW :
    let t := ran .startW (inBus .data .r 0x1234#16)
    t.bus.phase = .addrHi ∧ t.bus.dir = .w ∧ t.bus.inTransfer = true ∧ t.bus.ptr = 0x1234#16 ∧ t.out = [.ack] := by
  decide

/-- A read start sends the byte at the pointer, here `ID`. -/
theorem test_startR :
    let t := ran .startR (inBus .data .w 0x1000#16)
    t.bus.phase = .data ∧ t.bus.dir = .r ∧ t.bus.ptr = 0x1001#16 ∧ t.out = [.ack, .tx 0x01#8] := by decide

theorem test_addrHi :
    let t := ran (.addrHi 0x10#8) (inBus .addrHi .w 0x0000#16)
    t.bus.phase = .addrLo ∧ t.bus.addrHi = 0x10#8 ∧ t.bus.ptr = 0x0000#16 := by decide

theorem test_addrLo :
    (ran (.addrLo 0x13#8) (ran (.addrHi 0x10#8) (inBus .addrHi .w 0x0000#16))).bus.ptr = 0x1013#16 := by decide

/-- The byte at 4095 goes to `mem`; the next one goes to slot 0, which drops it, acknowledged. -/
theorem test_wrData :
    let t := ran (.wrData 0x11#8) (inBus .data .w 0x0FFF#16)
    t.mem = [(4095, 0x11#8)] ∧ t.bus.ptr = 0x1000#16 ∧ (ran (.wrData 0x22#8) t).slots = pwr0.slots ∧
    (ran (.wrData 0x22#8) t).out = [.ack] := by decide

/-- Address 65535 is slot 31, and the pointer wraps to 0. -/
theorem test_wrData_wraps :
    let t := ran (.wrData 0x77#8) (inBus .data .w 0xFFFF#16)
    t.slot 31 = 0x77#8 ∧ t.bus.ptr = 0x0000#16 := by decide

theorem test_rdAck :
    let t := ran .rdAck (inBus .data .r 0x1001#16)
    t.out = [.tx 0x10#8] ∧ t.bus.ptr = 0x1002#16 := by decide

/-- The read that reports `short` clears it; the reason bits stay. -/
theorem test_rdAck_clears_short :
    let t := ran .rdAck (inBus .data .r 0x1002#16)
    t.out = [.tx 0x11#8] ∧ t.slot 2 = 0x01#8 := by decide

theorem test_rdNack :
    let t := ran .rdNack (inBus .data .r 0x1001#16)
    t.bus.phase = .idle ∧ t.bus.inTransfer = true ∧ t.bus.ptr = 0x1001#16 ∧ t.out = [] := by decide

theorem test_stop :
    let t := ran .stop (inBus .data .w 0x100F#16)
    t.bus.phase = .idle ∧ t.bus.inTransfer = false ∧ t.bus.ptr = 0x100F#16 := by decide

/-- One address byte alone leaves the pointer a free value: a draw is made. -/
theorem test_stop_half_pointer :
    (ran .stop (inBus .addrLo .w 0x100F#16)).draws = pwr0.draws + 1 ∧
    (ran .stop (inBus .addrHi .w 0x100F#16)).draws = pwr0.draws := by decide

theorem test_busErr :
    let t := ran .busErr (inBus .data .w 0x1015#16)
    t.bus.phase = .idle ∧ t.bus.inTransfer = false ∧ t.bus.ptr = 0x1015#16 ∧ t.out = [] := by decide

theorem test_wdataInRead :
    let t := ran (.wdataInRead 0x33#8) (inBus .data .r 0x1001#16)
    t.out = [.nack] ∧ t.bus.inTransfer = false ∧ t.bus.ptr = 0x1001#16 := by decide

theorem test_rackInWrite :
    let t := ran (.rackInWrite .rack) (inBus .addrHi .w 0x0000#16)
    t.bus.phase = .idle ∧ t.bus.inTransfer = false ∧ t.out = [] := by decide

theorem test_notAddressed :
    (ran (.notAddressed (.wdata 0x01#8)) pwr0).out = [.nack] ∧ (ran (.notAddressed .rack) pwr0).out = [] ∧
    (ran (.notAddressed .rack) pwr0).bus = pwr0.bus := by decide

theorem test_busInactive :
    let t := ran (.busInactive (.start 0x12#7 .w)) offBus
    t.out = [.nack] ∧ t.bus = offBus.bus := by decide

/-! ## The hang guard and the lifecycle operations (40_register_bus.md R144 to R147) -/

theorem test_hangguard :
    (ran .hangguard (inBus .data .w 0x0000#16)).bus.ack = true ∧
    (ran .hangguard { pwr0 with bus := { pwr0.bus with ack := true } }).bus.ack = false := by decide

theorem test_suspend :
    let t := ran .suspend (inBus .data .w 0x1000#16)
    t.bus.mode = .suspended ∧ t.bus.hgRun = false ∧ t.bus.inTransfer = false ∧ t.bus.ptr = 0x1000#16 := by decide

theorem test_resume :
    let t := ran .resume offBus
    t.bus.mode = .active ∧ t.bus.hgRun = true ∧ t.bus.phase = .idle := by decide

theorem test_shutdown : (ran .shutdown pwr0).bus.mode = .disabled := by decide

/-! ## Tick, super-loop, watchdog, resets (41_tick_scheduler.md, 70_reset_and_hazards.md) -/

/-- The first tick after `SchedInit` clocks consumer 1 (phase 1) and no other. -/
theorem test_tick :
    let t := ran .tick { pwr0 with sched := { pwr0.sched with dec := PerConsumer.all 0 } }
    t.sched.sub = 1 ∧ t.sched.flag = ⟨false, true, false, false, false⟩ ∧ t.sched.dec = ⟨0, 9, 0, 0, 0⟩ ∧
    t.wdtCnt = 1 := by decide

/-- The eighth tick of a millisecond advances the millisecond counter. -/
theorem test_tick_ms :
    let t := ran .tick { pwr0 with sched := { pwr0.sched with sub := 7 } }
    t.sched.sub = 0 ∧ t.sched.ms = 512#32 ∧ t.sched.dec = ⟨8, 9, 9, 9, 9⟩ := by decide

/-- The shutdown trigger, taken by the loop: the flag is cleared, the sequencer run, the loop left in Sleep. -/
theorem test_loopStep :
    let t := ran (.loopStep noPins) { withSlot 16 0x0F#8 with
      loopPos := .run, sched := { pwr0.sched with flag := PerConsumer.all true } }
    t.run = .sleep ∧ t.halted = true ∧ t.sched.flag = ⟨true, true, true, true, false⟩ ∧ t.loopPos = .ps := by decide

/-- A pass re-arms the watchdog, and the clock's evaluation is held while a transaction is in progress (R192). -/
theorem test_loopStep_held :
    (ran (.loopStep noPins) { pwr0 with wdtCnt := 7 }).wdtCnt = 0 ∧
    (ran (.loopStep noPins) { inBus .data .r 0#16 with
      loopPos := .rtc, sched := { pwr0.sched with flag := PerConsumer.all true } }).loopPos = .rtc := by decide

/-- `WDT_EXPIRE` with `rtc.count = 5000`: as `POWER_ON`, the count a draw (section 2.12). -/
theorem test_wdtExpire :
    let t := ran (.wdtExpire noPins) { pwr0 with wdtCnt := 8000, rtc := { pwr0.rtc with alarmEn := true } }
    t.run = .wake ∧ t.rtc.alarmEn = false ∧ t.draws = pwr0.draws + 2 ∧ t.slot 2 = 0x00#8 := by decide

theorem test_powerOn :
    let t := ran (.powerOn ⟨true, false, false, true⟩) pwr0
    t.slot 3 = 0x0C#8 ∧ t.dio.pressCnt = 300 ∧ t.slot 14 = 0x80#8 ∧ t.bus.mode = .disabled := by decide

theorem test_wakeup :
    let t := ran (.wakeup noPins) { asleep with rtc := { asleep.rtc with count := 5000#32 } }
    t.run = .wake ∧ t.auxRail = true ∧ t.halted = false ∧ t.rtc.count = 5000#32 := by decide

/-! ## The modules' evaluations -/

/-- A commit begins (section 2.11): erased storage, `Writing`, busy. -/
theorem test_evalPs :
    let t := ran .evalPs (withSlot 18 0x57#8)
    t.ps = { state := .writing, idx := 0 } ∧ t.slot 18 = 0x01#8 := by decide

/-- The last batch (section 2.11): `ps.idx = 1024`, Idle, `slot[18] = 0x00`. -/
theorem test_evalPs_last :
    let t := ran .evalPs { withSlot 18 0x01#8 with ps := { state := .writing, idx := 1020 }, mem := [(1023, 0x99#8)] }
    t.ps = { state := .idle, idx := 1024 } ∧ t.slot 18 = 0x00#8 ∧ t.nv = [(1023, 0x99#8)] := by decide

/-- The time field's commit (program P2). -/
theorem test_evalRtc :
    let t := ran .evalRtc (ran (.write32 0x1013#16 0x000003E8#32) pwr0)
    t.rtc.count = 1000#32 ∧ t.timeCommit = false ∧ t.slot 22 = 0xE8#8 := by decide

/-- The correction's commit: -3 (section 2.1). -/
theorem test_evalRtc_corr :
    let t := ran .evalRtc (ran (.write32 0x101B#16 0xFFFFFFFD#32) pwr0)
    t.rtc.corr = -3#32 ∧ t.rtc.corrCnt = -3#32 ∧ t.rtc.corrEn = true := by decide

/-- A level is accepted at its second sample, and the press counter is then loaded (R202, R204, R205). -/
theorem test_evalDio :
    let t := ran (.evalDio btnDown) pwr0
    t.dio.btn = ⟨true, false⟩ ∧ t.dio.pressCnt = 249 ∧ (ran (.evalDio btnDown) t).dio.pressCnt = 300 ∧
    (ran (.evalDio btnDown) t).slot 3 = 0x04#8 := by decide

/-- The evaluation that counts to 0 raises the long-press flag (R206). -/
theorem test_evalDio_long :
    (ran (.evalDio btnDown) { pwr0 with dio := { pwr0.dio with
      btn := ⟨true, true⟩, btnLast := true, pressCnt := 1 } }).longPress = true := by decide

/-- The pulse saturates at `IND_MAX` and turns (R247). -/
theorem test_evalInd :
    (ran .evalInd (withInd false true ⟨true, .charging, .fadeUp, 253#8, 0⟩)).ind =
      ⟨true, .charging, .fadeDown, 255#8, 0⟩ := by decide

/-- The blink's half-period (R250). -/
theorem test_evalInd_blink :
    (ran .evalInd (withInd true true ⟨true, .fault, .blinkOn, 255#8, 1⟩)).ind =
      ⟨true, .fault, .blinkOff, 0#8, 25⟩ := by decide

/-- Charge to Power on charge-done (section 2.10): `STATUS = 0x14` with `short` kept. -/
theorem test_evalRun :
    let t := ran .evalRun ((sequencing .charge true false false 3524#16).setSlot 15 0x04#8)
    t.run = .power ∧ t.slot 2 = 0x14#8 ∧ t.mainRail = true ∧ t.bus.mode = .active := by decide

/-- Scenario A: the third evaluation below 3300 sets `crit` and leaves for Sleep. -/
theorem test_evalRun_crit :
    let t := ran .evalRun { sequencing .power false false false 3200#16 with critCnt := 2 }
    t.run = .sleep ∧ t.slot 2 = 0x91#8 ∧ t.auxRail = false := by decide

/-- The tenth second of program P3: the alarm is raised once and disarms. -/
theorem test_second :
    let t := ran .second (withRtc { pwr0.rtc with count := 109#32, alarm := 110#32, alarmEn := true })
    t.rtc.count = 110#32 ∧ t.alarmPending = true ∧ t.rtc.alarmEn = false := by decide

/-- A negative correction counted to 0 takes the second back, under `CORR_POS_ADDS` (R222). -/
theorem test_second_corr :
    let t := ran .second (correcting (-3#32) (-1#32))
    t.rtc.count = 100#32 ∧ t.rtc.corrCnt = -3#32 := by decide

/-- The filter's second step from 1000 (section 2.9): 1938, published as 121 by the identity of CFG0. -/
theorem test_sample :
    let t := ran (.sample (.analog 0) 1000#16) (ran (.sample (.analog 0) 1000#16) pwr0)
    t.filt.sum[0] = 1938#32 ∧ t.meas[0] = 121#16 := by decide

/-- The temperature's ring: the new value takes the place of the oldest. -/
theorem test_sample_temperature :
    let t := ran (.sample .temperature 801#16) { pwr0 with
      filt := { pwr0.filt with tbuf := List.replicate 8 800#16, tsum := 6400#32, tpos := 7 } }
    t.filt.tsum = 6401#32 ∧ t.filt.tpos = 0 ∧ t.filt.tbuf[7]? = some 801#16 ∧ t.temp = 800#16 := by decide

/-- A lookup that is not the identity: channel 1's value 62 is published as 0x0123, the other channels' as it is. -/
theorem test_calibrate :
    let c := { Config.cfg0 with calTable := [⟨1, 62#32, 0x0123#16⟩] }
    calibrate c 1 62#32 = 0x0123#16 ∧ calibrate c 0 62#32 = 62#16 ∧ calibrate c 1 63#32 = 63#16 := by decide

/-! ## Composite operations of the host (programs P1, P2) -/

theorem test_write8 :
    let t := ran (.write8 0x100E#16 0x40#8) pwr0
    t.slot 14 = 0x40#8 ∧ t.bus.ptr = 0x100F#16 ∧ t.pwmBl = 0x40#8 ∧ t.bus.inTransfer = false := by decide

theorem test_write16 :
    let t := ran (.write16 0x101F#16 0xA55A#16) pwr0
    t.slot 31 = 0xA5#8 ∧ t.slot 0 = 0x01#8 ∧ t.bus.ptr = 0x1021#16 := by decide

theorem test_write32 :
    let t := ran (.write32 0x1017#16 0x0000006E#32) pwr0
    t.be32 23 = 110#32 ∧ t.alarmCommit = true ∧ t.timeCommit = false ∧ t.bus.ptr = 0x101B#16 := by decide

theorem test_read8 :
    (ran (.read8 0x1002#16) pwr0).sent = [0x11#8] ∧ (ran (.read8 0x1002#16) pwr0).slot 2 = 0x01#8 := by decide

/-- The high byte's fetch latches the pair: 3524 = 0x0DC4. -/
theorem test_read16 :
    let t := ran (.read16 0x1008#16) pwr0
    t.sent = [0x0D#8, 0xC4#8] ∧ t.be16 8 = 3524#16 := by decide

theorem test_read32 :
    (ran (.read32 0x1000#16) pwr0).sent = [0x01#8, 0x10#8, 0x11#8, 0x00#8] ∧
    (ran (.read32 0x1000#16) pwr0).bus.ptr = 0x1004#16 := by decide

/-- Program P1: the two bytes past 4095 fall on slots 0 and 1 and are dropped. -/
theorem test_nvwrite :
    let t := ran (.nvwrite 0x0FFE#16 [0xAA#8, 0xBB#8, 0xCC#8, 0xDD#8]) pwr0
    t.mem = [(4094, 0xAA#8), (4095, 0xBB#8)] ∧ t.slots = pwr0.slots ∧ t.bus.ptr = 0x1002#16 := by decide

theorem test_nvread :
    (ran (.nvread 0x0FFE#16 4) { pwr0 with mem := [(4094, 0xAA#8), (4095, 0xBB#8)] }).sent =
      [0xAA#8, 0xBB#8, 0x01#8, 0x10#8] := by decide

theorem test_setptr : (ran (.setptr 0x1234#16) pwr0).bus.ptr = 0x1234#16 := by decide

/-! ## Pointer rows, trigger bytes, layouts -/

theorem test_ptrPersist :
    (ran (.ptrPersist 0x010#12 (.write 0x5A#8)) pwr0).mem = [(16, 0x5A#8)] ∧
    (ran (.ptrPersist 0x010#12 .read) { pwr0 with mem := [(16, 0x5A#8)] }).sent = [0x5A#8] := by decide

/-- Each system slot read through its row: identity, version, status, inputs. -/
theorem test_system_slots :
    (ran (.slotId 0x080#11 .read) pwr0).sent = [0x01#8] ∧ (ran (.slotVersion 0x7FF#11 .read) pwr0).sent = [0x10#8] ∧
    (ran (.slotStatus 0x080#11 .read) pwr0).slot 2 = 0x01#8 ∧
    (ran (.slotDin 0x080#11 (.write 0xFF#8)) pwr0).slots = pwr0.slots := by decide

/-- The high byte's row latches the current result, the low byte's row does not. -/
theorem test_measurement_slots :
    let s := { pwr0 with meas := #v[0x0102#16, 0x0304#16, 0x0506#16, 0x0708#16], temp := 0x090A#16 }
    [Instr.slotMeas0H 0x080#11 .read, .slotMeas1H 0x080#11 .read, .slotMeas2H 0x080#11 .read,
     .slotMeas3H 0x080#11 .read, .slotTempH 0x080#11 .read].map (fun i => (ran i s).sent) =
      [[0x01#8], [0x03#8], [0x05#8], [0x07#8], [0x09#8]] ∧
    (ran (.slotMeas3H 0x080#11 .read) s).be16 10 = 0x0708#16 := by decide

theorem test_measurement_low_slots :
    let s := { pwr0 with meas := #v[0x0102#16, 0x0304#16, 0x0506#16, 0x0708#16], temp := 0x090A#16 }
    [Instr.slotMeas0L 0x080#11 .read, .slotMeas1L 0x080#11 .read, .slotMeas2L 0x080#11 .read,
     .slotMeas3L 0x080#11 .read, .slotTempL 0x080#11 .read].map (fun i => (ran i s).sent) =
      [[0x00#8], [0x00#8], [0x00#8], [0x00#8], [0x00#8]] := by decide

/-- Each writable slot but 18 stores the byte; the low byte of a clock field sets its commit flag. -/
theorem test_writable_slots :
    [(14, Instr.slotBl 0x080#11 (.write 0x5A#8)), (15, .slotWk 0x080#11 (.write 0x5A#8)),
     (16, .slotShdn 0x080#11 (.write 0x5A#8)), (17, .slotPress 0x080#11 (.write 0x5A#8)),
     (31, .slotSlot31 0x080#11 (.write 0x5A#8)), (19, .slotTime3 0x080#11 (.write 0x5A#8)),
     (20, .slotTime2 0x080#11 (.write 0x5A#8)), (21, .slotTime1 0x080#11 (.write 0x5A#8)),
     (22, .slotTime0 0x080#11 (.write 0x5A#8)), (23, .slotAlarm3 0x080#11 (.write 0x5A#8)),
     (24, .slotAlarm2 0x080#11 (.write 0x5A#8)), (25, .slotAlarm1 0x080#11 (.write 0x5A#8)),
     (26, .slotAlarm0 0x080#11 (.write 0x5A#8)), (27, .slotCorr3 0x080#11 (.write 0x5A#8)),
     (28, .slotCorr2 0x080#11 (.write 0x5A#8)), (29, .slotCorr1 0x080#11 (.write 0x5A#8)),
     (30, .slotCorr0 0x080#11 (.write 0x5A#8))].all (fun (p : Fin 32 × Instr) =>
       (ran p.2 pwr0).slots == pwr0.slots.set p.1.val 0x5A#8 && (ran p.2 pwr0).timeCommit == (p.1 == 22) &&
       (ran p.2 pwr0).alarmCommit == (p.1 == 26) && (ran p.2 pwr0).corrCommit == (p.1 == 30)) = true := by decide

theorem test_slotNvctl :
    (ran (.slotNvctl 0x080#11 (.write 0x33#8)) (withSlot 18 0x01#8)).slot 18 = 0x00#8 ∧
    (ran (.slotNvctl 0x080#11 (.write 0x57#8)) pwr0).slot 18 = 0x57#8 := by decide

theorem test_triggers :
    (ran .shdnRequest pwr0).slot 16 = 0x0F#8 ∧ (ran .nvCommit pwr0).slot 18 = 0x57#8 ∧
    (ran .nvReload pwr0).slot 18 = 0x52#8 ∧ (ran (.nvOther 0x33#8) (withSlot 18 0x01#8)).slot 18 = 0x00#8 := by decide

theorem test_layouts :
    (ran (.statusFields true false 0b010#3) pwr0).slot 2 = 0x82#8 ∧
    (ran (.dinFields true false true false) pwr0).slot 3 = 0x0A#8 ∧
    (ran (.wkFields false true true 0xF0#8) pwr0).slot 15 = 0xF6#8 ∧
    (ran (.versionFields 3#4 7#4) pwr0).slot 1 = 0x10#8 := by decide

/-! ## Witnesses: a state and operands that meet the hypotheses of each obligation -/

theorem witness_DecodeEncodeAgree :
    tableCtx.cfg.wf = true ∧ Instr.startW.wellFormed tableCtx = true ∧
    (Instr.nvwrite 0xFFFF#16 [0#8, 1#8]).wellFormed tableCtx = true ∧ (Instr.slotId 128#11 .read).wellFormed tableCtx = true ∧
    (Instr.busInactive .stop).wellFormed ctxOff = true := by decide

theorem witness_DecodedIsWellFormed : decode tableCtx [0x01#8, 0x24#8, 0x05#8] = .ok (.startW, [0x05#8]) := rfl

theorem witness_StepRunsDecodedEvent :
    (Instr.startW.wellFormed { pwr0 with inbox := [0x01#8, 0x24#8] }.ctx = true ∧
      decode { pwr0 with inbox := [0x01#8, 0x24#8] }.ctx [0x01#8, 0x24#8] = .ok (.startW, [])) ∧
    pwr0.inbox = [] ∧
    ([0xFF#8] ≠ ([] : List Byte) ∧ decode { pwr0 with inbox := [0xFF#8] }.ctx [0xFF#8] = .error (.unknownTag 0xFF#8)) :=
  ⟨⟨rfl, rfl⟩, rfl, by decide, rfl⟩

/-- PWR0 with `mem` and `nv` listed up to their last byte and a write to come. -/
def storing : State := { pwr0 with mem := [(4095, 1#8)], nv := [(1023, 2#8)], inbox := [0x20#8, 0x00#8, 0x00#8, 0x05#8] }

theorem witness_StepKeepsCanonicalStores : storesOk storing = true ∧ ∃ t, step storing = .next t :=
  ⟨by decide, _, rfl⟩

/-- PWR0 with its system slots as `slotsOk` has them, and a wake-up, a tick or a loop step to come. -/
def coming (bs : List Byte) : State := { pwr0 with inbox := bs }

theorem witness_AgentStepsKeepPowerTable :
    decode (coming [0x15#8, 0x00#8]).ctx [0x15#8, 0x00#8] = .ok (.loopStep noPins, []) ∧
    (Instr.loopStep noPins).isAgentStep = true ∧ powerOk (coming [0x15#8, 0x00#8]) = true ∧
    ∃ t, step (coming [0x15#8, 0x00#8]) = .next t := ⟨rfl, rfl, by decide, _, rfl⟩

theorem witness_StepsKeepCounterRanges :
    (coming [0x14#8]).cfg.wf = true ∧ countersOk (coming [0x14#8]) = true ∧ tempOk (coming [0x14#8]) = true ∧
    ∃ t, step (coming [0x14#8]) = .next t := ⟨by decide, by decide, by decide, _, rfl⟩

theorem witness_AgentStepsKeepSystemSlots :
    (coming [0x14#8]).cfg.wf = true ∧ decode (coming [0x14#8]).ctx [0x14#8] = .ok (.tick, []) ∧
    Instr.tick.isAgentStep = true ∧ slotsOk (coming [0x14#8]) = true ∧ ∃ t, step (coming [0x14#8]) = .next t :=
  ⟨by decide, rfl, rfl, by decide, _, rfl⟩

theorem witness_ResetMeetsInvariants :
    let s := { pwr0 with draws := 0 }
    s.cfg = Config.cfg0 ∧ s.nv = [] ∧ s.draws = 0 ∧ s.inbox = [] := ⟨rfl, rfl, rfl, rfl⟩

theorem witness_StartForWriteOpensTransaction :
    pwr0.bus.mode = .active ∧ pwr0.bus.phase ≠ .addrLo ∧ (inBus .addrLo .w 0#16).bus.mode = .active := by decide

theorem witness_ReadTransactionFetchesBytes :
    (inBus .data .r 0x1000#16).bus.mode = .active ∧ (inBus .data .r 0x1000#16).bus.phase = .data ∧
    (inBus .data .r 0x1000#16).bus.dir = .r ∧ (inBus .data .r 0x1000#16).bus.phase ≠ .addrLo := by decide

theorem witness_PointerBytesLoadPointer :
    (inBus .addrHi .w 0#16).bus.mode = .active ∧ (inBus .addrHi .w 0#16).bus.phase = .addrHi ∧
    (inBus .addrLo .w 0#16).bus.mode = .active ∧ (inBus .addrLo .w 0#16).bus.phase = .addrLo := by decide

/-- At the ends of each kind of location: the last byte of `mem`, the first and last read-only slot, the low bytes
that commit, the last address. -/
theorem witness_WriteByteStoresAtPointer :
    [0x0FFF#16, 0x1000#16, 0x100D#16, 0x100E#16, 0x1016#16, 0x101A#16, 0x101E#16, 0xFFFF#16].all (fun p =>
      (inBus .data .w p).bus.mode == .active && (inBus .data .w p).bus.phase == .data &&
      (inBus .data .w p).bus.dir == .w) = true := by decide

theorem witness_BacklightTracksBrightness :
    [0x100E#16, 0xFFEE#16].all (fun p =>
      (inBus .data .w p).bus.mode == .active && (inBus .data .w p).bus.phase == .data &&
      (inBus .data .w p).bus.dir == .w && decide (4096 ≤ (inBus .data .w p).bus.ptr.toNat) &&
      (inBus .data .w p).bus.ptr.toNat % 32 == 14) = true := by decide

theorem witness_RegisterReadRule :
    (0x0FFF#16).toNat < 4096 ∧ (4096 ≤ (0x1002#16).toNat ∧ (0x1002#16).toNat % 32 = 2) ∧
    (4096 ≤ (0x1004#16).toNat ∧ (0x1004#16).toNat % 32 = (highSlot 0).val) ∧
    (4096 ≤ (0xFFEC#16).toNat ∧ (0xFFEC#16).toNat % 32 = (highSlot 4).val) ∧
    (4096 ≤ (0x1000#16).toNat ∧ (0x1000#16).toNat % 32 ≠ 2 ∧ ∀ j, (0x1000#16).toNat % 32 ≠ (highSlot j).val) ∧
    (4096 ≤ (0xFFFF#16).toNat ∧ (0xFFFF#16).toNat % 32 ≠ 2 ∧ ∀ j, (0xFFFF#16).toNat % 32 ≠ (highSlot j).val) := by
  decide

theorem witness_EndOfTransaction :
    pwr0.bus.mode = .active ∧ pwr0.bus.phase ≠ .addrLo ∧ (0x50#7 : BitVec 7) ≠ pwr0.cfg.slaveAddr := by decide

theorem witness_UnexpectedEventsResetOrAreIgnored :
    ((inBus .data .r 0#16).bus.mode = .active ∧ (inBus .data .r 0#16).bus.phase = .data ∧
      (inBus .data .r 0#16).bus.dir = .r) ∧
    ((inBus .addrHi .w 0#16).bus.mode = .active ∧ (inBus .addrHi .w 0#16).ctx.expectsWrite = true ∧
      (inBus .addrHi .w 0#16).bus.phase ≠ .addrLo ∧ (WireEvent.rack = .rack ∨ WireEvent.rack = .rnack)) ∧
    (pwr0.bus.mode = .active ∧ pwr0.bus.phase = .idle ∧ (WireEvent.wdata 0#8).isDataEvent = true) ∧
    offBus.bus.mode ≠ .active := by decide

theorem witness_PhaseMachineFollowsTable :
    pwr0.bus.mode = .active ∧ (0x50#7 : BitVec 7) ≠ pwr0.cfg.slaveAddr ∧ WireEvent.rack.isDataEvent = true := by decide

theorem witness_WriteBytesAreAcknowledged :
    (inBus .addrHi .w 0#16).bus.mode = .active ∧ (inBus .addrHi .w 0#16).ctx.expectsWrite = true ∧
    (∃ t, exec (rowOfWire (inBus .addrHi .w 0#16).ctx (.wdata 1#8)) (inBus .addrHi .w 0#16) = .next t) ∧
    .nack ∈ (ran (rowOfWire pwr0.ctx (.wdata 1#8)) pwr0).out := ⟨by decide, by decide, ⟨_, rfl⟩, by decide⟩

theorem witness_HangGuardAndLifecycleOperations :
    (pwr0.bus.hgRun = true ∧ pwr0.halted = false ∧ busOk pwr0.bus = true ∧ pwr0.bus.phase ≠ .addrLo) ∧
    offBus.bus.hgRun = false ∧ asleep.halted = true := by decide

theorem witness_HostReachesRegisterSpaceOnly :
    Instr.startR.isBusStep = true ∧ (∃ t, exec .startR pwr0 = .next t) ∧ 7 ≠ pwr0.cfg.stShortBit :=
  ⟨rfl, ⟨_, rfl⟩, by decide⟩

theorem witness_SlotRowsLoadPointerAndRead :
    slotPrefixOk 128#11 = true ∧ slotPrefixOk 0x7FF#11 = true ∧
    (0 : Fin 32).val ∉ [2, 4, 6, 8, 10, 12] ∧ (31 : Fin 32).val ∉ [2, 4, 6, 8, 10, 12] := by decide

theorem witness_ReadsWithSideEffects : slotPrefixOk 128#11 = true ∧ slotPrefixOk 0x7FF#11 = true := by decide

theorem witness_SlotWritesStoreOrAreDropped :
    slotPrefixOk 128#11 = true ∧ (0 : Fin 32).val < 14 ∧ (13 : Fin 32).val < 14 ∧
    (14 ≤ (14 : Fin 32).val ∧ (14 : Fin 32) ≠ 18) ∧ (14 ≤ (31 : Fin 32).val ∧ (31 : Fin 32) ≠ 18) := by decide

theorem witness_TriggerBytesAreFiltered :
    pwr0.cfg.wf = true ∧ slotPrefixOk 128#11 = true ∧
    (0x56#8 : Byte) ≠ pwr0.cfg.nvCmdCommit ∧ (0x56#8 : Byte) ≠ pwr0.cfg.nvCmdReload := by decide

theorem witness_FieldLayoutsBitByBit : pwr0.cfg.wf = true := by decide

theorem witness_IdentityAndVersionAreConstant :
    (∃ t, exec (.versionFields 3#4 7#4) pwr0 = .next t) ∧ ∃ t, exec (.powerOn noPins) pwr0 = .next t :=
  ⟨⟨_, rfl⟩, _, rfl⟩

theorem witness_WriteThenReadSamePointer :
    (∃ t u, exec (rowOfPointer 0x100E#16 (.write 1#8)) pwr0 = .next t ∧ exec (rowOfPointer 0x100E#16 .read) t = .next u) ∧
    ((0x0FFF#16).toNat < 4096 ∧ 14 ≤ (0x100E#16).toNat % 32 ∧ (0x100E#16).toNat % 32 ≠ 18 ∧
      14 ≤ (0xFFFF#16).toNat % 32 ∧ (0xFFFF#16).toNat % 32 ≠ 18) ∧
    (4096 ≤ (0x1012#16).toNat ∧ (0x1012#16).toNat % 32 = 18) ∧
    (4096 ≤ (0x1000#16).toNat ∧ (0x1000#16).toNat % 32 < 14 ∧ (0x100D#16).toNat % 32 < 14) :=
  ⟨⟨_, _, rfl, rfl⟩, by decide, by decide, by decide⟩

theorem witness_AliasesAreOneLocation :
    (4096 ≤ (0x1000#16).toNat ∧ 4096 ≤ (0xFFE0#16).toNat ∧ (0x1000#16).toNat % 32 = (0xFFE0#16).toNat % 32) ∧
    (∃ t, exec (rowOfPointer 0x1000#16 .read) pwr0 = .next t) ∧ ∃ u, exec (rowOfPointer 0xFFE0#16 .read) pwr0 = .next u :=
  ⟨by decide, ⟨_, rfl⟩, _, rfl⟩

theorem witness_OpenTransactionFreezesFields :
    (∀ i ∈ [Instr.second, .tick, .hangguard], i.isInternalStep = true) ∧
    ∃ u, runs [.second, .tick, .hangguard] (inBus .data .r 0x1014#16) = some u ∧ u.bus.inTransfer = true :=
  ⟨by decide, _, rfl, rfl⟩

theorem witness_MeasurementReadIsOneResult :
    let s := inBus .data .r 0x1008#16
    let w := inBus .data .w 0xFFEC#16
    (s.bus.mode = .active ∧ s.bus.phase = .data ∧ s.bus.dir = .r) ∧ w.bus.mode = .active ∧
    (4096 ≤ (0x1008#16).toNat ∧ (0x1008#16).toNat % 32 = (highSlot 2).val) ∧
    (4096 ≤ (0xFFEC#16).toNat ∧ (0xFFEC#16).toNat % 32 = (highSlot 4).val) ∧
    (∀ i ∈ [Instr.sample (.analog 2) 0#16, .sample .temperature 9#16], i.isInternalStep = true) ∧
    (∃ s' u u', exec .rdAck s = .next s' ∧ s'.bus.ptr = 0x1008#16 + 1#16 ∧
      runs [.sample (.analog 2) 0#16] s' = some u ∧ u.bus.phase = .data ∧ exec .rdAck u = .next u') ∧
    ∃ s' u u', exec .startR w = .next s' ∧ s'.bus.ptr = 0xFFEC#16 + 1#16 ∧
      runs [.sample .temperature 9#16] s' = some u ∧ u.bus.phase = .data ∧ exec .rdAck u = .next u' :=
  ⟨by decide, by decide, by decide, by decide, by decide, ⟨_, _, _, rfl, rfl, rfl, rfl, rfl⟩,
    _, _, _, rfl, rfl, rfl, rfl, rfl⟩

theorem witness_HostWritesBytesInOrder :
    pwr0.bus.mode = .active ∧ pwr0.bus.phase ≠ .addrLo ∧
    (Instr.write8 0xFFFF#16 1#8, [1#8]) ∈
      [(.setptr 0xFFFF#16, []), (Instr.write8 0xFFFF#16 1#8, [1#8]), (.write16 0xFFFF#16 2#16, bytes16 2#16),
       (.write32 0xFFFF#16 3#32, bytes32 3#32), (.nvwrite 0xFFFF#16 [4#8], [4#8])] := by decide

theorem witness_HostReadsBytesInOrder :
    pwr0.bus.mode = .active ∧ pwr0.bus.phase ≠ .addrLo ∧ 1 ≤ 1 ∧
    (Instr.nvread 0xFFFF#16 1, 1) ∈
      [(Instr.read8 0xFFFF#16, 1), (.read16 0xFFFF#16, 2), (.read32 0xFFFF#16, 4), (.nvread 0xFFFF#16 1, 1)] := by decide

theorem witness_PersistentWriteReadsBack :
    pwr0.bus.mode = .active ∧ ([1#8] : List Byte) ≠ [] ∧ (0x0FFF#16).toNat + [1#8].length ≤ 4096 ∧
    (0x0000#16).toNat + [1#8].length ≤ 4096 := by decide

theorem witness_TickDecimatesFlags : pwr0.halted = false := rfl

/-- The tick that brings sub-tick 0 clocks the first consumer. -/
theorem witness_TickClocksAtMostOneConsumer :
    let s := { pwr0 with sched := { pwr0.sched with sub := 7 } }
    s.cfg.wf = true ∧ (∃ t, exec .tick s = .next t) ∧ (ran .tick s).sched.dec.get .ps ≠ s.sched.dec.get .ps :=
  ⟨by decide, ⟨_, rfl⟩, by decide⟩

theorem witness_LoopStepPollsOneFlag :
    (pwr0.halted = false ∧ pwr0.loopHeld = false ∧ pwr0.sched.flag.get pwr0.loopPos = false) ∧
    let s := { pwr0 with sched := { pwr0.sched with flag := PerConsumer.all true } }
    s.halted = false ∧ s.loopHeld = false ∧ s.sched.flag.get s.loopPos = true := by decide

theorem witness_DisabledEventsChangeNothing :
    asleep.halted = true ∧
    (let s := { inBus .data .r 0#16 with loopPos := .rtc, sched := { pwr0.sched with flag := PerConsumer.all true } }
     s.loopPos = .rtc ∧ s.sched.flag.rtc = true ∧ s.bus.inTransfer = true) ∧
    pwr0.wdtCnt ≠ pwr0.cfg.wdtTicks ∧ pwr0.halted = false := by decide

/-- At the end of the count, and one tick before it. -/
theorem witness_UnarmedWatchdogResetsBlock :
    (let s := { pwr0 with wdtCnt := 8000 }
     s.halted = false ∧ s.wdtCnt ≤ s.cfg.wdtTicks ∧ s.cfg.wdtTicks ≤ s.wdtCnt + 0) ∧
    (let s := { pwr0 with wdtCnt := 7999 }
     s.halted = false ∧ s.wdtCnt ≤ s.cfg.wdtTicks ∧ s.cfg.wdtTicks ≤ s.wdtCnt + 1) := by decide

theorem witness_WakeupRunsWakeEntry : asleep.halted = true := rfl

/-- A down event, a held button at its last count, a released one. -/
theorem witness_PressTimingRule :
    (let s := { pwr0 with dio := { pwr0.dio with btn := ⟨true, false⟩ } }
     s.dio.btnLast = false ∧ (ran (.evalDio btnDown) s).dio.btn.deb = true) ∧
    (let s := { pwr0 with dio := { pwr0.dio with btn := ⟨true, true⟩, btnLast := true, pressCnt := 1 } }
     s.dio.btnLast = true ∧ (ran (.evalDio btnDown) s).dio.btn.deb = true) ∧
    (ran (.evalDio noPins) pwr0).dio.btn.deb = false := by decide

/-- With a threshold of 1: before the first evaluation, and after it. -/
theorem witness_LongPressAfterThreshold :
    let s := { pwr0 with
      cfg := { Config.cfg0 with longPressTicks := 1 }
      dio := { pwr0.dio with btn := ⟨true, true⟩, btnLast := true, pressCnt := 1 } }
    s.cfg.wf = true ∧ (∀ p ∈ [btnDown], p.btn = true) ∧ s.dio.btn = ⟨true, true⟩ ∧ s.dio.btnLast = true ∧
    s.dio.pressCnt = s.cfg.longPressTicks ∧ s.longPress = false ∧ [btnDown].length ≤ s.cfg.longPressTicks ∧
    ([] : List Pins).length ≤ s.cfg.longPressTicks := by decide

theorem witness_SecondAdvancesClock :
    pwr0.rtc.corrEn = false ∧
    ((correcting (-3#32) (-1#32)).rtc.corrEn = true ∧ (correcting (-3#32) (-1#32)).rtc.corrCnt.toInt.natAbs ≤ 1) ∧
    ((correcting 3#32 2#32).rtc.corrEn = true ∧ 1 < (correcting 3#32 2#32).rtc.corrCnt.toInt.natAbs) := by decide

/-- At a correction of 1 and at the most negative one. -/
theorem witness_CorrectionNudgesOncePerPeriod :
    (let s := correcting 1#32 1#32
     s.rtc.corrEn = true ∧ s.rtc.corr ≠ 0#32 ∧ s.rtc.corrCnt = s.rtc.corr ∧ 1 = s.rtc.corr.toInt.natAbs) ∧
    (let s := correcting 0x80000000#32 0x80000000#32
     s.rtc.corrEn = true ∧ s.rtc.corr ≠ 0#32 ∧ s.rtc.corrCnt = s.rtc.corr ∧ 2147483648 = s.rtc.corr.toInt.natAbs) := by
  decide

theorem witness_ClockEvaluationCommitsAndPublishes : pwr0.bus.inTransfer = false := rfl

theorem witness_TimeRoundTrip :
    pwr0.bus.mode = .active ∧ pwr0.rtc.corrEn = false ∧ pwr0.corrCommit = false := by decide

/-- Disabled; each charge state newly selected; each mode's step, the blink at its last count and before it. -/
theorem witness_IndicatorEvaluation :
    asleep.ind.en = false ∧
    [(false, false, ChgState.off), (false, true, .charging), (true, false, .complete), (true, true, .fault)].all
      (fun p =>
        (withInd p.1 p.2.1 ⟨true, if p.2.2 = .off then .fault else .off, .off, 0#8, 0⟩).ind.en &&
        (withInd p.1 p.2.1 ⟨true, .off, .off, 0#8, 0⟩).chgState == p.2.2) = true ∧
    [IndMode.off, .solid, .fadeUp, .fadeDown].all (fun m =>
      (withInd false true ⟨true, .charging, m, 0#8, 0⟩).chgState ==
        (withInd false true ⟨true, .charging, m, 0#8, 0⟩).ind.sel) = true ∧
    [IndMode.blinkOn, .blinkOff].all (fun m =>
      (withInd true true ⟨true, .fault, m, 0#8, 1⟩).chgState == .fault &&
      decide (1 < (withInd true true ⟨true, .fault, m, 0#8, 2⟩).ind.cnt)) = true := by decide

theorem witness_PersistentStoreEvaluation :
    pwr0.cfg.wf = true ∧ pwr0.ps.idx ≤ 1024 ∧
    (let s := { pwr0 with ps := { state := .writing, idx := 1024 } }
     s.ps.idx ≤ 1024 ∧ s.ps.state = .writing) ∧
    ((withSlot 18 0x57#8).ps.state = .idle ∧ (withSlot 18 0x57#8).slot 18 = (withSlot 18 0x57#8).cfg.nvCmdCommit) ∧
    ((withSlot 18 0x52#8).ps.state = .idle ∧ (withSlot 18 0x52#8).slot 18 = (withSlot 18 0x52#8).cfg.nvCmdReload) ∧
    (pwr0.ps.state = .idle ∧ pwr0.slot 18 ≠ pwr0.cfg.nvCmdCommit ∧ pwr0.slot 18 ≠ pwr0.cfg.nvCmdReload) := by decide

theorem witness_CommitCopiesWholeMirror :
    (withSlot 18 0x57#8).cfg.wf = true ∧ (withSlot 18 0x57#8).ps.state = .idle ∧
    (withSlot 18 0x57#8).slot 18 = (withSlot 18 0x57#8).cfg.nvCmdCommit ∧
    256 = (1024 + (withSlot 18 0x57#8).cfg.nvBatch - 1) / (withSlot 18 0x57#8).cfg.nvBatch := by decide

theorem witness_OnlyTheStoreWritesNv : ∃ t, exec .startR pwr0 = .next t := ⟨_, rfl⟩

/-- With an accumulator just below 2^31. -/
theorem witness_SampleFiltersAndPublishes :
    let s := { pwr0 with filt := { pwr0.filt with sum := #v[0x7FFFFFFF#32, 0#32, 0#32, 0#32] } }
    s.cfg.wf = true ∧ s.filt.sum[(0 : Fin 4).val].toNat < 2 ^ 31 := by decide

theorem witness_TransitionsRunEntryActions :
    (∃ t, exec .evalRun pwr0 = .next t) ∧ (ran .evalRun pwr0).run = pwr0.run ∧
    (ran .evalRun (sequencing .wake false true false 0#16)).run = .charge ∧
    (ran .evalRun { sequencing .wake false false true 3500#16 with
      dio := { pwr0.dio with btn := ⟨true, true⟩, shortLatched := true } }).run = .wait ∧
    (ran .evalRun (sequencing .wait false false false 3500#16)).run = .power ∧
    (ran .evalRun { pwr0 with longPress := true }).run = .powerOff ∧
    (ran .evalRun (withSlot 16 0x0F#8)).run = .sleep ∧
    ((sequencing .wake false true false 0#16).run ≠ .power ∧ pwr0.bus.phase ≠ .addrLo) ∧
    { pwr0 with longPress := true }.run = .power := ⟨⟨_, rfl⟩, by decide⟩

theorem witness_EntryToPowerReportsReason :
    (sequencing .wait false false false 3500#16).cfg.wf = true ∧
    (∃ t, exec .evalRun (sequencing .wait false false false 3500#16) = .next t) ∧
    (sequencing .wait false false false 3500#16).run ≠ .power ∧
    (ran .evalRun (sequencing .wait false false false 3500#16)).run = .power ∧
    (ran .evalRun { sequencing .wake false false false 3500#16 with alarmPending := true }).run = .power :=
  ⟨by decide, ⟨_, rfl⟩, by decide, by decide, by decide⟩

/-- Just below the threshold, at the limit and one count before it, and at the threshold. -/
theorem witness_CriticalBatteryForcesExit :
    let s := { sequencing .power false false false 3299#16 with critCnt := 3 }
    (s.cfg.wf = true ∧ s.run = .power ∧ s.longPress = false ∧ s.critCnt ≤ s.cfg.critTimeout + s.cfg.critGrace ∧
      s.meas[s.cfg.vbatCh.val].toNat < s.cfg.vbatCrit.toNat ∧
      min (s.critCnt + 1) (s.cfg.critTimeout + s.cfg.critGrace) = s.cfg.critTimeout + s.cfg.critGrace) ∧
    min (1 + 1) (pwr0.cfg.critTimeout + pwr0.cfg.critGrace) < pwr0.cfg.critTimeout + pwr0.cfg.critGrace ∧
    { sequencing .power false false false 3299#16 with critCnt := 1 }.slot 16 ≠ pwr0.cfg.shdnSentinel ∧
    (sequencing .power false false false 3300#16).cfg.vbatCrit.toNat ≤
      (sequencing .power false false false 3300#16).meas[pwr0.cfg.vbatCh.val].toNat ∧
    pwr0.slot 16 ≠ pwr0.cfg.shdnSentinel ∧ (withSlot 16 0x0F#8).slot 16 = (withSlot 16 0x0F#8).cfg.shdnSentinel := by
  decide

theorem witness_OnlySequencerSwitchesRails : ∃ t, exec .second pwr0 = .next t := ⟨_, rfl⟩

end Sys2Proof.Tests
end

section
/-! Which control slots each operation of the machine can write, and from that O60: no instruction but a reset writes
`ID` and `VERSION` (10_state.md R14, R15). -/

namespace Sys2Proof.Machine

/-! ## Slots written within a set -/

/-- From `s` to `t` no control slot outside `W` changes. -/
def WritesWithin (W : Finset (Fin 32)) (s t : State) : Prop := ∀ k ∉ W, t.slot k = s.slot k

variable {W V : Finset (Fin 32)} {s t u : State}

theorem writesWithin_of_slots_eq (h : t.slots = s.slots) : WritesWithin W s t := by
  intro k _
  simp only [State.slot, h]

theorem writesWithin_refl : WritesWithin W s s := fun _ _ => rfl

theorem WritesWithin.trans (hst : WritesWithin W s t) (htu : WritesWithin W t u) : WritesWithin W s u :=
  fun k hk => (htu k hk).trans (hst k hk)

theorem WritesWithin.mono (h : WritesWithin W s t) (hWV : W ⊆ V) : WritesWithin V s t :=
  fun k hk => h k fun hkW => hk (hWV hkW)

theorem setSlot_writesWithin {k : Fin 32} (b : Byte) (hk : k ∈ W) : WritesWithin W s (s.setSlot k b) :=
  fun _ hj => slot_setSlot_other s b fun e => hj (e ▸ hk)

theorem setSlot_writesWithin_of_slots_eq {k : Fin 32} (h : t.slots = s.slots) (b : Byte) (hk : k ∈ W) :
    WritesWithin W s (t.setSlot k b) :=
  (writesWithin_of_slots_eq h).trans (setSlot_writesWithin b hk)

theorem setBe16_writesWithin {k : Fin 32} (v : Half) (hi : k ∈ W) (lo : k + 1 ∈ W) :
    WritesWithin W s (s.setBe16 k v) :=
  (setSlot_writesWithin _ hi).trans (setSlot_writesWithin _ lo)

/-! ## The bus -/

@[simp] theorem slots_dropHalfPointer (s : State) : (dropHalfPointer s).slots = s.slots :=
  (congrArg State.slots (dropHalfPointer_eq s) :)

@[simp] theorem slots_closeTransaction (s : State) : (closeTransaction s).slots = s.slots :=
  (congrArg State.slots (closeTransaction_eq s) :)

@[simp] theorem slots_detachBus (m : BusMode) (s : State) : (detachBus m s).slots = s.slots :=
  (congrArg State.slots (detachBus_eq s m) :)

/-- A read writes `STATUS` or a measurement pair, which all lie above `VERSION` (20_memory.md R61). -/
theorem regRead_writesWithin (p : Half) (s : State) : WritesWithin (Finset.Icc 2 13) s (regRead p s).2 := by
  rcases regRead_spec s p with ⟨_, e⟩ | ⟨_, _, e⟩ | ⟨_, w, hw, e⟩ | ⟨_, _, _, e⟩ <;> rw [e]
  · exact writesWithin_refl
  · exact setSlot_writesWithin _ (by decide)
  · have hk : slotOf p = 4 ∨ slotOf p = 6 ∨ slotOf p = 8 ∨ slotOf p = 10 ∨ slotOf p = 12 := by
      simpa [hw] using resultOf_isSome s (slotOf p)
    rcases hk with hk | hk | hk | hk | hk <;> rw [hk] <;> exact setBe16_writesWithin w (by decide) (by decide)
  · exact writesWithin_refl

/-- A write changes no slot below `RO_BOUNDARY` (20_memory.md R62, R69). -/
theorem regWrite_writesWithin (p : Half) (b : Byte) (s : State) :
    WritesWithin (Finset.Ici 14) s (regWrite p b s) := by
  rcases regWrite_spec s p b with ⟨_, e⟩ | ⟨_, _, e⟩ | ⟨_, _, e⟩ | ⟨_, hk, _, e⟩ <;> rw [e]
  · exact writesWithin_of_slots_eq rfl
  · exact writesWithin_refl
  · exact setSlot_writesWithin _ (by decide)
  · have hmem : slotOf p ∈ Finset.Ici (14 : Fin 32) := Finset.mem_Ici.mpr (Nat.le_of_not_lt hk)
    exact (setSlot_writesWithin b hmem).trans (writesWithin_of_slots_eq rfl)

theorem fetchByte_writesWithin (s : State) : WritesWithin (Finset.Ici 2) s (fetchByte s).2 :=
  ((regRead_writesWithin s.bus.ptr s).mono (by decide)).trans (writesWithin_of_slots_eq rfl)

theorem storeByte_writesWithin (b : Byte) (s : State) : WritesWithin (Finset.Ici 2) s (storeByte b s) :=
  ((regWrite_writesWithin s.bus.ptr b s).mono (by decide)).trans (writesWithin_of_slots_eq rfl)

theorem busStartR_writesWithin (s : State) : WritesWithin (Finset.Ici 2) s (busStartR s) :=
  have hopen : WritesWithin (Finset.Ici 2) s (openRead s) := writesWithin_of_slots_eq (slots_dropHalfPointer s)
  hopen.trans ((fetchByte_writesWithin (openRead s)).trans (writesWithin_of_slots_eq rfl))

theorem serviceStart_writesWithin (a : BitVec 7) (rw : Dir) (s : State) :
    WritesWithin (Finset.Ici 2) s (serviceStart a rw s) := by
  unfold serviceStart
  split
  · cases rw with
    | w => exact writesWithin_of_slots_eq (slots_dropHalfPointer s)
    | r => exact busStartR_writesWithin s
  · exact writesWithin_of_slots_eq (slots_closeTransaction s)

theorem serviceWdata_writesWithin (b : Byte) (s : State) : WritesWithin (Finset.Ici 2) s (serviceWdata b s) := by
  unfold serviceWdata
  split
  · exact writesWithin_of_slots_eq rfl
  · exact writesWithin_of_slots_eq rfl
  · exact writesWithin_of_slots_eq rfl
  · split
    · exact (storeByte_writesWithin b s).trans (writesWithin_of_slots_eq rfl)
    · exact writesWithin_of_slots_eq (slots_closeTransaction s)

theorem serviceRack_writesWithin (s : State) : WritesWithin (Finset.Ici 2) s (serviceRack s) := by
  unfold serviceRack
  split
  · exact writesWithin_of_slots_eq rfl
  · exact (fetchByte_writesWithin s).trans (writesWithin_of_slots_eq rfl)
  · exact writesWithin_of_slots_eq (slots_closeTransaction s)

theorem serviceRnack_writesWithin (s : State) : WritesWithin (Finset.Ici 2) s (serviceRnack s) := by
  unfold serviceRnack
  split
  · exact writesWithin_of_slots_eq rfl
  · exact writesWithin_of_slots_eq rfl
  · exact writesWithin_of_slots_eq (slots_closeTransaction s)

/-- No wire event writes `ID` or `VERSION`, in any mode, phase and direction. -/
theorem service_writesWithin (e : WireEvent) (s : State) : WritesWithin (Finset.Ici 2) s (service e s) := by
  unfold service
  split
  · cases e with
    | start a rw => exact serviceStart_writesWithin a rw s
    | wdata b => exact serviceWdata_writesWithin b s
    | rack => exact serviceRack_writesWithin s
    | rnack => exact serviceRnack_writesWithin s
    | stop => exact writesWithin_of_slots_eq (slots_closeTransaction s)
    | busErr => exact writesWithin_of_slots_eq (slots_closeTransaction s)
  · exact writesWithin_of_slots_eq rfl

theorem transact_writesWithin (es : List WireEvent) (s : State) :
    WritesWithin (Finset.Ici 2) s (transact es s) := by
  induction es generalizing s with
  | nil => exact writesWithin_of_slots_eq rfl
  | cons e es ih =>
    rw [transact_cons]
    exact (service_writesWithin e s).trans ((ih (service e s)).trans (writesWithin_of_slots_eq rfl))

theorem accessAt_writesWithin (p : Half) (acc : Access) (s : State) :
    WritesWithin (Finset.Ici 2) s (accessAt p acc s) := by
  cases acc with
  | point => exact writesWithin_of_slots_eq rfl
  | read => exact (fetchByte_writesWithin (s.setPtr p)).trans (writesWithin_of_slots_eq rfl)
  | write b => exact (storeByte_writesWithin b (s.setPtr p)).trans (writesWithin_of_slots_eq rfl)

theorem slots_hangGuard (s : State) : (hangGuard s).slots = s.slots := by
  unfold hangGuard
  split <;> rfl

/-! ## The evaluations -/

/-- The persistent store writes `NVCTL` alone. -/
theorem evalPs_writesWithin (s : State) : WritesWithin {18} s (evalPs s) := by
  unfold evalPs
  split
  · unfold psWriteBack
    dsimp only
    split
    · split
      · exact setSlot_writesWithin_of_slots_eq rfl _ (by decide)
      · exact writesWithin_of_slots_eq rfl
    · exact writesWithin_of_slots_eq rfl
  · split
    · exact setSlot_writesWithin_of_slots_eq rfl _ (by decide)
    · split
      · exact setSlot_writesWithin_of_slots_eq rfl _ (by decide)
      · exact writesWithin_refl

theorem slots_armAlarm_commits (s : State) :
    (armAlarm (commitCorr (commitAlarm (commitTime s)))).slots = s.slots :=
  calc (commitCorr (commitAlarm (commitTime s))).slots
      = (commitAlarm (commitTime s)).slots := (congrArg State.slots (commitCorr_frame _) :)
    _ = (commitTime s).slots := (congrArg State.slots (commitAlarm_frame _) :)
    _ = s.slots := (congrArg State.slots (commitTime_frame s) :)

/-- The clock writes the four `TIME` slots alone. -/
theorem evalRtc_writesWithin (s : State) : WritesWithin (Finset.Icc 19 22) s (evalRtc s) := by
  refine (writesWithin_of_slots_eq (slots_armAlarm_commits s)).trans fun k hk => ?_
  have hne : ∀ j ∈ Finset.Icc (19 : Fin 32) 22, k ≠ j := fun j hj e => hk (e ▸ hj)
  rw [evalRtc, publishTime, slot_setBe32, if_neg (hne _ (by decide)), if_neg (hne _ (by decide)),
    if_neg (hne _ (by decide)), if_neg (hne _ (by decide))]

theorem dioShort_writesWithin (s : State) : WritesWithin {2, 3} s (dioShort s) := by
  unfold dioShort
  split
  · exact setSlot_writesWithin _ (by decide)
  · exact writesWithin_refl

/-- The digital I/O monitor writes `STATUS` and `DIN` alone. -/
theorem evalDio_writesWithin (p : Pins) (s : State) : WritesWithin {2, 3} s (evalDio p s) := by
  have hpress : (dioPress (dioSample p s)).slots = s.slots := (congrArg State.slots (dioPress_frame (dioSample p s)) :)
  exact (writesWithin_of_slots_eq hpress).trans
    ((dioShort_writesWithin _).trans (setSlot_writesWithin _ (by decide)))

theorem slots_evalInd (s : State) : (evalInd s).slots = s.slots := (congrArg State.slots (evalInd_frame s) :)

/-! ## The sequencer -/

@[simp] theorem slots_goCharge (s : State) : (goCharge s).slots = s.slots := slots_detachBus .suspended _

@[simp] theorem slots_goSleep (s : State) : (goSleep s).slots = s.slots := slots_detachBus .disabled _

@[simp] theorem slots_goChargeOrSleep (s : State) : (goChargeOrSleep s).slots = s.slots := by
  unfold goChargeOrSleep
  split <;> simp

theorem goPower_writesWithin (r : BitVec 3) (s : State) : WritesWithin {2, 16} s (goPower r s) :=
  setSlot_writesWithin_of_slots_eq rfl _ (by decide)

theorem critUpdate_writesWithin (s : State) : WritesWithin {2, 16} s (critUpdate s) := by
  unfold critUpdate
  dsimp only
  split
  · split
    · exact setSlot_writesWithin_of_slots_eq rfl _ (by decide)
    · exact writesWithin_of_slots_eq rfl
  · exact setSlot_writesWithin_of_slots_eq rfl _ (by decide)

theorem consumeShutdown_writesWithin (s : State) : WritesWithin {2, 16} s (consumeShutdown s) := by
  unfold consumeShutdown
  split
  · exact setSlot_writesWithin _ (by decide)
  · exact writesWithin_refl

theorem runWake_writesWithin (s : State) : WritesWithin {2, 16} s (runWake s) := by
  unfold runWake
  split
  · exact goPower_writesWithin _ _
  · split
    · exact writesWithin_of_slots_eq (slots_goCharge s)
    · split
      · exact writesWithin_of_slots_eq rfl
      · split
        · exact writesWithin_of_slots_eq (slots_goSleep s)
        · exact writesWithin_refl

theorem runCharge_writesWithin (s : State) : WritesWithin {2, 16} s (runCharge s) := by
  unfold runCharge
  split
  · exact goPower_writesWithin _ _
  · split
    · exact writesWithin_of_slots_eq (slots_goSleep s)
    · exact writesWithin_refl

theorem runWait_writesWithin (s : State) : WritesWithin {2, 16} s (runWait s) := by
  unfold runWait
  split
  · exact writesWithin_refl
  · exact goPower_writesWithin _ s

theorem runPower_writesWithin (lp : Bool) (s : State) : WritesWithin {2, 16} s (runPower lp s) := by
  have hupdate := (critUpdate_writesWithin s).trans (consumeShutdown_writesWithin (critUpdate s))
  unfold runPower
  dsimp only
  split
  · exact writesWithin_of_slots_eq rfl
  · split
    · exact hupdate.trans (writesWithin_of_slots_eq (slots_goChargeOrSleep _))
    · exact hupdate

theorem runPowerOff_writesWithin (s : State) : WritesWithin {2, 16} s (runPowerOff s) := by
  unfold runPowerOff
  split
  · exact writesWithin_refl
  · exact writesWithin_of_slots_eq (slots_goChargeOrSleep s)

/-- The sequencer writes `STATUS` and `SHDN` alone. -/
theorem evalRun_writesWithin (s : State) : WritesWithin {2, 16} s (evalRun s) := by
  unfold evalRun
  dsimp only
  split
  · exact runWake_writesWithin { s with longPress := false }
  · exact runCharge_writesWithin { s with longPress := false }
  · exact runWait_writesWithin { s with longPress := false }
  · exact runPower_writesWithin s.longPress { s with longPress := false }
  · exact runPowerOff_writesWithin { s with longPress := false }
  · exact writesWithin_of_slots_eq rfl

/-! ## The scheduler and the resets -/

theorem evalConsumer_writesWithin (i : Consumer) (p : Pins) (s : State) :
    WritesWithin (Finset.Ici 2) s (evalConsumer i p s) := by
  cases i with
  | ps => exact (evalPs_writesWithin s).mono (by decide)
  | rtc => exact (evalRtc_writesWithin s).mono (by decide)
  | dio => exact (evalDio_writesWithin p s).mono (by decide)
  | ind => exact writesWithin_of_slots_eq (slots_evalInd s)
  | run => exact (evalRun_writesWithin s).mono (by decide)

theorem pollFlag_writesWithin (p : Pins) (s : State) : WritesWithin (Finset.Ici 2) s (pollFlag p s) := by
  unfold pollFlag
  split
  · exact evalConsumer_writesWithin s.loopPos p
      { s with sched := { s.sched with flag := s.sched.flag.set s.loopPos false } }
  · exact writesWithin_refl

theorem slots_rearmWatchdog (s : State) : (rearmWatchdog s).slots = s.slots := by
  unfold rearmWatchdog
  split <;> rfl

theorem loopStep_writesWithin (p : Pins) (s : State) : WritesWithin (Finset.Ici 2) s (loopStep p s) := by
  unfold loopStep
  split
  · exact writesWithin_refl
  · exact (writesWithin_of_slots_eq (slots_rearmWatchdog s)).trans
      ((pollFlag_writesWithin p _).trans (writesWithin_of_slots_eq rfl))

theorem slots_oneTick (s : State) : (oneTick s).slots = s.slots := by
  unfold oneTick
  split <;> rfl

theorem slots_oneSecond (s : State) : (oneSecond s).slots = s.slots := (congrArg State.slots (oneSecond_frame s) :)

theorem slots_sampleResult (ch : Channel) (v : Half) (s : State) : (sampleResult ch v s).slots = s.slots :=
  (congrArg State.slots (sampleResult_frame s ch v) :)

/-- A wake-up writes `DIN` alone. -/
theorem wakeUp_writesWithin (p : Pins) (s : State) : WritesWithin {3} s (wakeUp p s) := by
  unfold wakeUp
  split
  · exact fun k hk => (slot_wakeEntry _ p k).trans (if_neg (Finset.notMem_singleton.mp hk))
  · exact writesWithin_refl

theorem watchdogExpire_cases (p : Pins) (s : State) :
    watchdogExpire p s = raiseWatchdogReset p s ∨ watchdogExpire p s = s := by
  unfold watchdogExpire
  split
  · exact .inl rfl
  · exact .inr rfl

/-- The packed version byte as a number: the major nibble in bits 7:4 (30_encoding.md R102). -/
theorem toNat_packVersion (major minor : BitVec 4) :
    (packVersion major minor).toNat = 16 * major.toNat + minor.toNat := by
  have hminor : minor.toNat < 2 ^ 4 := minor.isLt
  rw [packVersion, BitVec.toNat_append, ← Nat.shiftLeft_add_eq_or_of_lt hminor, Nat.shiftLeft_eq, Nat.mul_comm]

theorem slot_zero_powerOnReset (p : Pins) (s : State) : (powerOnReset p s).slot 0 = s.cfg.idValue :=
  slot_wakeEntry (clearAll s) p 0

theorem slot_one_powerOnReset (p : Pins) (s : State) :
    (powerOnReset p s).slot 1 = packVersion s.cfg.versionMajor s.cfg.versionMinor :=
  slot_wakeEntry (clearAll s) p 1

/-! ## Every instruction -/

/-- Every instruction is a reset, or leaves `ID` and `VERSION` as they were. -/
theorem exec_reset_or_writesWithin (i : Instr) (s : State) :
    (∃ p, i = .powerOn p ∧ exec i s = .next (powerOnReset p s)) ∨
    (∃ p, i = .wdtExpire p ∧ exec i s = .next (raiseWatchdogReset p s)) ∨
    ∃ t, exec i s = .next t ∧ WritesWithin (Finset.Ici 2) s t := by
  cases i with
  | powerOn p => exact .inl ⟨p, rfl, rfl⟩
  | wdtExpire p =>
    rcases watchdogExpire_cases p s with h | h
    · exact .inr (.inl ⟨p, rfl, congrArg _ h⟩)
    · exact .inr (.inr ⟨s, congrArg _ h, writesWithin_refl⟩)
  | startOther | startW | startR | addrHi | addrLo | wrData | rdAck | rdNack | stop | busErr | wdataInRead
  | rackInWrite | notAddressed | busInactive => exact .inr (.inr ⟨_, rfl, service_writesWithin _ s⟩)
  | write8 | write16 | write32 | read8 | read16 | read32 | nvwrite | nvread | setptr =>
    exact .inr (.inr ⟨_, rfl, transact_writesWithin _ s⟩)
  | ptrPersist | slotId | slotVersion | slotStatus | slotDin | slotMeas0H | slotMeas0L | slotMeas1H | slotMeas1L
  | slotMeas2H | slotMeas2L | slotMeas3H | slotMeas3L | slotTempH | slotTempL | slotBl | slotWk | slotShdn | slotPress
  | slotNvctl | slotTime3 | slotTime2 | slotTime1 | slotTime0 | slotAlarm3 | slotAlarm2 | slotAlarm1 | slotAlarm0
  | slotCorr3 | slotCorr2 | slotCorr1 | slotCorr0 | slotSlot31 | shdnRequest | nvCommit | nvReload | nvOther
  | wkFields | versionFields => exact .inr (.inr ⟨_, rfl, accessAt_writesWithin _ _ s⟩)
  | statusFields | dinFields => exact .inr (.inr ⟨_, rfl, setSlot_writesWithin _ (by decide)⟩)
  | hangguard => exact .inr (.inr ⟨_, rfl, writesWithin_of_slots_eq (slots_hangGuard s)⟩)
  | suspend | shutdown => exact .inr (.inr ⟨_, rfl, writesWithin_of_slots_eq (slots_detachBus _ s)⟩)
  | resume => exact .inr (.inr ⟨_, rfl, writesWithin_of_slots_eq rfl⟩)
  | tick => exact .inr (.inr ⟨_, rfl, writesWithin_of_slots_eq (slots_oneTick s)⟩)
  | loopStep p => exact .inr (.inr ⟨_, rfl, loopStep_writesWithin p s⟩)
  | evalPs => exact .inr (.inr ⟨_, rfl, (evalPs_writesWithin s).mono (by decide)⟩)
  | evalRtc =>
    refine .inr (.inr ⟨_, rfl, ?_⟩)
    split
    · exact writesWithin_refl
    · exact (evalRtc_writesWithin s).mono (by decide)
  | evalDio p => exact .inr (.inr ⟨_, rfl, (evalDio_writesWithin p s).mono (by decide)⟩)
  | evalInd => exact .inr (.inr ⟨_, rfl, writesWithin_of_slots_eq (slots_evalInd s)⟩)
  | evalRun => exact .inr (.inr ⟨_, rfl, (evalRun_writesWithin s).mono (by decide)⟩)
  | second => exact .inr (.inr ⟨_, rfl, writesWithin_of_slots_eq (slots_oneSecond s)⟩)
  | sample ch v => exact .inr (.inr ⟨_, rfl, writesWithin_of_slots_eq (slots_sampleResult ch v s)⟩)
  | wakeup p => exact .inr (.inr ⟨_, rfl, (wakeUp_writesWithin p s).mono (by decide)⟩)

/-- Settles O60: the slots every instruction can write, and what the two resets leave in slots 0 and 1. -/
theorem identityAndVersionAreConstant : Obligations.IdentityAndVersionAreConstant := by
  unfold Obligations.IdentityAndVersionAreConstant
  intro i s t h
  have hver : ∀ p, ((powerOnReset p s).slot 1).toNat = 16 * s.cfg.versionMajor.toNat + s.cfg.versionMinor.toNat :=
    fun p => by rw [slot_one_powerOnReset, toNat_packVersion]
  rcases exec_reset_or_writesWithin i s with ⟨p, hi, e⟩ | ⟨p, hi, e⟩ | ⟨u, e, hu⟩
  · obtain rfl : powerOnReset p s = t := Host.Outcome.next.inj (e.symm.trans h)
    exact .inr ⟨⟨p, .inl hi⟩, slot_zero_powerOnReset p s, hver p⟩
  · obtain rfl : raiseWatchdogReset p s = t := Host.Outcome.next.inj (e.symm.trans h)
    exact .inr ⟨⟨p, .inr hi⟩, slot_zero_powerOnReset p s, hver p⟩
  · obtain rfl : u = t := Host.Outcome.next.inj (e.symm.trans h)
    exact .inl ⟨hu 0 (by decide), hu 1 (by decide)⟩

end Sys2Proof.Machine
end

section
/-! What a byte read or written through a pointer does, in the spec's numbers: O16 from `RegRead` (20_memory.md R61),
O14 from `RegWrite` (20_memory.md R62, R69) as `WR_DATA` runs it (40_register_bus.md R136). -/

namespace Sys2Proof.Machine

/-- The slot a pointer selects, as the number of its five low bits. -/
theorem slotOf_eq_iff {p : Half} {k : Fin 32} : slotOf p = k ↔ p.toNat % 32 = k.val := Fin.ext_iff

theorem not_persist_of_le {p : Half} (h : 4096 ≤ p.toNat) : ¬ p.toNat < Config.persistSize := Nat.not_lt.mpr h

/-! ## The results behind the high-byte slots -/

theorem resultOf_highSlot (s : State) (j : Fin 5) : s.resultOf (highSlot j) = some (resultAt s j) := by
  fin_cases j <;> rfl

theorem resultOf_eq_none (s : State) {k : Fin 32} (h : ∀ j, k ≠ highSlot j) : s.resultOf k = none := by
  have h4 : k ≠ 4 := h 0
  have h6 : k ≠ 6 := h 1
  have h8 : k ≠ 8 := h 2
  have h10 : k ≠ 10 := h 3
  have h12 : k ≠ 12 := h 4
  simpa [h4, h6, h8, h10, h12] using resultOf_isSome s k

theorem highSlot_ne_succ (j : Fin 5) : highSlot j ≠ highSlot j + 1 := by decide +revert

/-- Clearing `short` keeps every other bit of `STATUS` (30_encoding.md R99). -/
theorem getLsbD_status_setShort_false (s : State) {n : Nat} (hn : n < 8) :
    ((s.setShort false).slot 2).getLsbD n = (decide (n ≠ s.cfg.stShortBit) && (s.slot 2).getLsbD n) := by
  rw [slot_setShort, if_pos rfl, getLsbD_putBit]
  by_cases h : n = s.cfg.stShortBit
  · rw [if_pos ⟨h, hn⟩, decide_eq_false (not_not_intro h), Bool.false_and]
  · rw [if_neg (fun e => h e.1), decide_eq_true h, Bool.true_and]

/-- Settles O16: each branch of `RegRead`, then the slots it writes one by one. -/
theorem registerReadRule : Obligations.RegisterReadRule := by
  unfold Obligations.RegisterReadRule
  intro s p
  refine ⟨regRead_frame s p, fun hp => ?persist, fun hp hk => ?status, fun j hp hk => ?result,
    fun hp h2 hres => ?plain⟩
  case persist =>
    rw [regRead_persist s hp]
    exact ⟨rfl, fun _ => rfl⟩
  case status =>
    rw [regRead_status s (not_persist_of_le hp) (slotOf_eq_iff.mpr hk)]
    exact ⟨rfl, fun n hn => getLsbD_status_setShort_false s hn, fun k hk => slot_setSlot_other s _ hk⟩
  case result =>
    have hslot : slotOf p = highSlot j := slotOf_eq_iff.mpr hk
    rw [regRead_latch s (not_persist_of_le hp) (hslot ▸ resultOf_highSlot s j), hslot]
    refine ⟨rfl, ?_, ?_, fun k hhi hlo => ?_⟩ <;> rw [slot_setBe16]
    · rw [if_neg (highSlot_ne_succ j), if_pos rfl]
    · rw [if_pos rfl]
    · rw [if_neg hlo, if_neg hhi]
  case plain =>
    rw [regRead_plain s (not_persist_of_le hp) (fun e => h2 (slotOf_eq_iff.mp e))
      (resultOf_eq_none s fun j e => hres j (slotOf_eq_iff.mp e))]
    exact ⟨rfl, fun _ => rfl⟩

/-! ## What a write leaves of `mem` and the commit flags -/

/-- A write stores nothing at or above `PERSIST_SIZE` in `mem`. -/
theorem read_mem_regWrite_of_le (p : Half) (b : Byte) (s : State) {a : Nat} (ha : 4096 ≤ a) :
    Memory.read (regWrite p b s).mem a = Memory.read s.mem a := by
  by_cases hp : p.toNat < Config.persistSize
  · have hne : a ≠ p.toNat := (hp.trans_le ha).ne'
    rw [regWrite_persist s b hp, Memory.read_write, if_neg hne]
  · have hmem : (regWrite p b s).mem = s.mem := by
      rcases regWrite_spec s p b with ⟨hlow, _⟩ | ⟨_, _, e⟩ | ⟨_, _, e⟩ | ⟨_, _, _, e⟩
      · exact absurd hlow hp
      all_goals exact (congrArg State.mem e :)
    rw [hmem]

/-- The pointer `p` selects slot `k` of the control region (20_memory.md R60, R80). -/
def selectsSlot (p : Half) (k : Fin 32) : Bool := decide (4096 ≤ p.toNat ∧ p.toNat % 32 = k.val)

theorem selectsSlot_eq_beq {p : Half} (hp : ¬ p.toNat < Config.persistSize) (k : Fin 32) :
    selectsSlot p k = (slotOf p == k) := by
  have hle : 4096 ≤ p.toNat := Nat.not_lt.mp hp
  simp [selectsSlot, hle, slotOf_eq_iff, Bool.beq_eq_decide_eq]

theorem selectsSlot_persist {p : Half} (hp : p.toNat < Config.persistSize) (k : Fin 32) : selectsSlot p k = false :=
  decide_eq_false fun h => not_persist_of_le h.1 hp

/-- A write sets the commit flag of the 32-bit field whose low byte it stores, and no other (20_memory.md R62). -/
theorem commits_regWrite (p : Half) (b : Byte) (s : State) :
    (regWrite p b s).timeCommit = (s.timeCommit || selectsSlot p 22) ∧
    (regWrite p b s).alarmCommit = (s.alarmCommit || selectsSlot p 26) ∧
    (regWrite p b s).corrCommit = (s.corrCommit || selectsSlot p 30) := by
  by_cases hp : p.toNat < Config.persistSize
  · simp [regWrite_persist s b hp, selectsSlot_persist hp]
  · simp only [selectsSlot_eq_beq hp]
    rcases regWrite_spec s p b with ⟨hlow, _⟩ | ⟨_, hk, e⟩ | ⟨_, hk, e⟩ | ⟨_, _, _, e⟩
    · exact absurd hlow hp
    · have hne (k : Fin 32) (hw : Config.roBoundary ≤ k.val) : slotOf p ≠ k := fun h => by omega
      simp [e, hne 22 (by decide), hne 26 (by decide), hne 30 (by decide)]
    · simp [e, hk]
    · rw [e]
      exact ⟨rfl, rfl, rfl⟩

/-! ## `WR_DATA` -/

/-- `WR_DATA` in the data phase of a write transaction is `RegWrite` at the pointer, the pointer's advance and `ACK`
(40_register_bus.md R136). -/
theorem exec_wrData {s : State} (b : Byte) (hmode : s.bus.mode = .active) (hphase : s.bus.phase = .data)
    (hdir : s.bus.dir = .w) :
    exec (.wrData b) s = .next { regWrite s.bus.ptr b s with
      bus := { s.bus with ptr := s.bus.ptr + 1#16, ack := true }, out := [.ack] } := by
  have hservice : exec (.wrData b) s = .next (busWrData b s) := by
    show Host.Outcome.next (service (.wdata b) s) = _
    rw [service, if_pos hmode]
    simp only [serviceWdata, hphase, hdir]
  have hbus : (regWrite s.bus.ptr b s).bus = s.bus := (congrArg State.bus (regWrite_frame s s.bus.ptr b) :)
  rw [hservice, busWrData, storeByte_eq, State.setPtr, hbus]

/-- Settles O14: `WR_DATA` as `RegWrite`, and what that leaves of the locations, of `mem`, of the commit flags and of
everything else. -/
theorem writeByteStoresAtPointer : Obligations.WriteByteStoresAtPointer := by
  unfold Obligations.WriteByteStoresAtPointer
  intro s b hmode hphase hdir
  obtain ⟨htime, halarm, hcorr⟩ := commits_regWrite s.bus.ptr b s
  refine ⟨_, exec_wrData b hmode hphase hdir, fun q => peek_regWrite s s.bus.ptr q b,
    fun a ha => read_mem_regWrite_of_le s.bus.ptr b s ha, htime, halarm, hcorr, ?_⟩
  rw [regWrite_frame]

end Sys2Proof.Machine
end

section
/-! The bus events one by one (40_register_bus.md R130 to R151): which rule serves an event in the slave's mode, phase
and direction, and what that rule leaves behind. From that O11, O12, O13, O17, O18 and O20. -/

namespace Sys2Proof.Machine

variable {s : State} {e : WireEvent}

/-! ## Where the slave stands -/

theorem expectsWrite_iff :
    s.ctx.expectsWrite = true ↔
      s.bus.phase = .addrHi ∨ s.bus.phase = .addrLo ∨ s.bus.phase = .data ∧ s.bus.dir = .w := by
  simp [Ctx.expectsWrite, State.ctx, or_assoc]

/-- The three columns of R141 and R142: no transaction, a read, or a byte expected from the host. -/
theorem idle_or_read_or_expectsWrite (s : State) :
    s.bus.phase = .idle ∨ (s.bus.phase = .data ∧ s.bus.dir = .r) ∨ s.ctx.expectsWrite = true := by
  rw [expectsWrite_iff]
  cases s.bus.phase with
  | idle => exact .inl rfl
  | addrHi => exact .inr (.inr (.inl rfl))
  | addrLo => exact .inr (.inr (.inr (.inl rfl)))
  | data =>
    cases s.bus.dir with
    | w => exact .inr (.inr (.inr (.inr ⟨rfl, rfl⟩)))
    | r => exact .inr (.inl ⟨rfl, rfl⟩)

/-- An address byte stands for the start event it was built from (30_encoding.md R91). -/
theorem startOfByte_addressByte (a : BitVec 7) (rw : Dir) : startOfByte (addressByte a rw) = .start a rw := by
  have haddr : (addressByte a rw).extractLsb' 1 7 = a := BitVec.extractLsb'_append_eq_left
  have hbit : (addressByte a rw).extractLsb' 0 1 = rw.toBit := BitVec.extractLsb'_append_eq_right
  have hdir : Dir.ofBit rw.toBit = rw := by cases rw <;> rfl
  rw [startOfByte, haddr, hbit, hdir]

/-- The row of the slave's own address byte, by its direction bit (R132, R133). -/
theorem rowOfWire_ownAddress (hm : s.bus.mode = .active) (rw : Dir) :
    rowOfWire s.ctx (startOfByte (addressByte s.cfg.slaveAddr rw)) = if rw = .w then .startW else .startR := by
  rw [startOfByte_addressByte]
  cases rw <;> simp [rowOfWire, State.ctx, hm]

/-- The pointer word of two address bytes as a number, the first byte high (00_scope.md R8). -/
theorem toNat_join16 (hi lo : Byte) : (join16 hi lo).toNat = 256 * hi.toNat + lo.toNat := by
  have hlo : lo.toNat < 2 ^ 8 := lo.isLt
  rw [join16, BitVec.toNat_append, ← Nat.shiftLeft_add_eq_or_of_lt hlo, Nat.shiftLeft_eq, Nat.mul_comm]

/-! ## The pointer where a transaction ends or starts anew (R143) -/

theorem dropHalfPointer_of_ne (h : s.bus.phase ≠ .addrLo) : dropHalfPointer s = s := if_neg h

theorem dropHalfPointer_keeps (h : s.bus.phase ≠ .addrLo) :
    (dropHalfPointer s).bus.ptr = s.bus.ptr ∧ (dropHalfPointer s).draws = s.draws := by
  rw [dropHalfPointer_of_ne h]
  exact ⟨rfl, rfl⟩

/-- Only the pointer and the count of draws can differ after `dropHalfPointer`. -/
theorem dropHalfPointer_frame (s : State) :
    dropHalfPointer s = { s with
      bus := { s.bus with ptr := (dropHalfPointer s).bus.ptr }, draws := (dropHalfPointer s).draws } := by
  rw [dropHalfPointer_eq]

theorem closeTransaction_frame (s : State) :
    closeTransaction s = { s with
      bus := { s.bus with
        phase := .idle, inTransfer := false, ack := false, ptr := (dropHalfPointer s).bus.ptr }
      draws := (dropHalfPointer s).draws } := by
  rw [closeTransaction, dropHalfPointer_frame]

/-! ## `RegRead` and the bus -/

/-- What a read returns and changes depends on neither the bus state nor the draws. -/
theorem regRead_bus_draws (s : State) (p : Half) (b : BusState) (d : Nat) :
    regRead p { s with bus := b, draws := d } =
      ((regRead p s).1, { (regRead p s).2 with bus := b, draws := d }) := by
  rcases regRead_spec s p with ⟨h, e⟩ | ⟨h, h2, e⟩ | ⟨h, w, hw, e⟩ | ⟨h, h2, hw, e⟩
  · rw [e, regRead_persist _ h]
  · rw [e, regRead_status _ h h2]; rfl
  · rw [e, regRead_latch { s with bus := b, draws := d } h (w := w) hw]; rfl
  · rw [e, regRead_plain { s with bus := b, draws := d } h h2 hw]; rfl

theorem regRead_bus (s : State) (p : Half) : (regRead p s).2.bus = s.bus :=
  (congrArg State.bus (regRead_frame s p) :)

/-- The start of a read (R133): the fetch is `RegRead` at the pointer kept or drawn. -/
theorem busStartR_eq (s : State) :
    busStartR s = { (regRead (dropHalfPointer s).bus.ptr s).2 with
      bus := { s.bus with
        dir := .r, phase := .data, inTransfer := true, ack := true, ptr := (dropHalfPointer s).bus.ptr + 1#16 }
      draws := (dropHalfPointer s).draws
      out := [.ack, .tx (regRead (dropHalfPointer s).bus.ptr s).1] } := by
  have hopen : openRead s = { s with
      bus := { s.bus with
        dir := .r, phase := .data, inTransfer := true, ack := true, ptr := (dropHalfPointer s).bus.ptr }
      draws := (dropHalfPointer s).draws } := by
    rw [openRead, dropHalfPointer_frame]
  rw [busStartR, hopen, fetchByte_eq, regRead_bus_draws]
  rfl

/-! ## The rule that serves an event -/

theorem service_inactive (hm : s.bus.mode ≠ .active) : service e s = busIgnore e s := if_neg hm

section
variable (hm : s.bus.mode = .active)
include hm

theorem service_startW : service (.start s.cfg.slaveAddr .w) s = busStartW s := by
  simp [service, hm, serviceStart]

theorem service_startR : service (.start s.cfg.slaveAddr .r) s = busStartR s := by
  simp [service, hm, serviceStart]

theorem service_startOther {a : BitVec 7} {rw : Dir} (ha : a ≠ s.cfg.slaveAddr) :
    service (.start a rw) s = busStartOther s := by
  simp [service, hm, serviceStart, ha]

theorem service_stop : service .stop s = busStop s := if_pos hm

theorem service_busErr : service .busErr s = busError s := if_pos hm

theorem service_wdata_addrHi {b : Byte} (hp : s.bus.phase = .addrHi) : service (.wdata b) s = busAddrHi b s := by
  simp [service, hm, serviceWdata, hp]

theorem service_wdata_addrLo {b : Byte} (hp : s.bus.phase = .addrLo) : service (.wdata b) s = busAddrLo b s := by
  simp [service, hm, serviceWdata, hp]

theorem service_wdata_write {b : Byte} (hp : s.bus.phase = .data) (hd : s.bus.dir = .w) :
    service (.wdata b) s = busWrData b s := by
  simp [service, hm, serviceWdata, hp, hd]

theorem service_wdata_read {b : Byte} (hp : s.bus.phase = .data) (hd : s.bus.dir = .r) :
    service (.wdata b) s = busWdataInRead s := by
  simp [service, hm, serviceWdata, hp, hd]

theorem service_rack_read (hp : s.bus.phase = .data) (hd : s.bus.dir = .r) : service .rack s = busRdAck s := by
  simp [service, hm, serviceRack, hp, hd]

theorem service_rnack_read (hp : s.bus.phase = .data) (hd : s.bus.dir = .r) : service .rnack s = busRdNack s := by
  simp [service, hm, serviceRnack, hp, hd]

/-- `RACK` or `RNACK` where a byte is expected from the host is the protocol reset (R141). -/
theorem service_ackEvent_expectsWrite (hw : s.ctx.expectsWrite = true) (he : e = .rack ∨ e = .rnack) :
    service e s = busAckInWrite s := by
  rcases expectsWrite_iff.mp hw with hp | hp | ⟨hp, hd⟩ <;> rcases he with rfl | rfl
  all_goals simp [service, serviceRack, serviceRnack, *]

/-- A data event in phase Idle is not serviced (R142). -/
theorem service_idle (hp : s.bus.phase = .idle) (he : e.isDataEvent = true) : service e s = busIgnore e s := by
  cases e with
  | wdata b => simp [service, hm, serviceWdata, hp]
  | rack => simp [service, hm, serviceRack, hp]
  | rnack => simp [service, hm, serviceRnack, hp]
  | start | stop | busErr => exact absurd he Bool.false_ne_true

end

theorem unservicedResponse_dataEvent (he : e.isDataEvent = true) :
    unservicedResponse e = if e.isAckEvent then [] else [.nack] := by
  cases e with
  | wdata | rack | rnack => rfl
  | start | stop | busErr => exact absurd he Bool.false_ne_true

/-! ## What each event answers (R148) -/

theorem service_start_nack (hm : s.bus.mode = .active) {a : BitVec 7} {rw : Dir}
    (hn : .nack ∈ (service (.start a rw) s).out) : (service (.start a rw) s).bus.phase = .idle := by
  by_cases ha : a = s.cfg.slaveAddr
  · subst ha
    cases rw with
    | w =>
      rw [service_startW hm] at hn
      exact absurd hn (by simp [busStartW])
    | r =>
      rw [service_startR hm] at hn
      exact absurd hn (by simp [busStartR])
  · rw [service_startOther hm ha]
    rfl

/-- A byte the slave expects is answered by `ACK` and nothing else. -/
theorem service_wdata_out (hm : s.bus.mode = .active) (hw : s.ctx.expectsWrite = true) (b : Byte) :
    (service (.wdata b) s).out = [.ack] := by
  rcases expectsWrite_iff.mp hw with hp | hp | ⟨hp, hd⟩
  · rw [service_wdata_addrHi hm hp]; rfl
  · rw [service_wdata_addrLo hm hp]; rfl
  · rw [service_wdata_write hm hp hd]; rfl

theorem service_wdata_nack (hm : s.bus.mode = .active) {b : Byte} (hn : .nack ∈ (service (.wdata b) s).out) :
    (service (.wdata b) s).bus.phase = .idle := by
  rcases idle_or_read_or_expectsWrite s with hp | ⟨hp, hd⟩ | hw
  · rw [service_idle hm hp rfl]
    exact hp
  · rw [service_wdata_read hm hp hd]
    rfl
  · rw [service_wdata_out hm hw] at hn
    exact absurd hn (by simp)

/-- The host's own acknowledge is never answered by `NACK`. -/
theorem nack_notMem_service_ackEvent (hm : s.bus.mode = .active) (he : e = .rack ∨ e = .rnack) :
    .nack ∉ (service e s).out := by
  rcases idle_or_read_or_expectsWrite s with hp | ⟨hp, hd⟩ | hw
  · have hdata : e.isDataEvent = true := by rcases he with rfl | rfl <;> rfl
    rw [service_idle hm hp hdata]
    rcases he with rfl | rfl <;> exact List.not_mem_nil
  · rcases he with rfl | rfl
    · simp [service_rack_read hm hp hd, busRdAck]
    · simp [service_rnack_read hm hp hd, busRdNack]
  · simp [service_ackEvent_expectsWrite hm hw he, busAckInWrite]

/-- `NACK` is answered only by a slave that is in phase Idle afterwards. -/
theorem service_nack_idle (hm : s.bus.mode = .active) (hn : .nack ∈ (service e s).out) :
    (service e s).bus.phase = .idle := by
  cases e with
  | start => exact service_start_nack hm hn
  | wdata => exact service_wdata_nack hm hn
  | rack => exact absurd hn (nack_notMem_service_ackEvent hm (.inl rfl))
  | rnack => exact absurd hn (nack_notMem_service_ackEvent hm (.inr rfl))
  | stop => rw [service_stop hm]; rfl
  | busErr => rw [service_busErr hm]; rfl

/-- Settles O20: the event's row runs its service, a byte expected from the host is served by one of the three rules
that acknowledge, and no rule answers `NACK` but in phase Idle or on its way there. -/
theorem writeBytesAreAcknowledged : Obligations.WriteBytesAreAcknowledged := by
  unfold Obligations.WriteBytesAreAcknowledged
  intro s t e hm h
  obtain rfl : service e s = t := Host.Outcome.next.inj ((exec_rowOfWire s e).symm.trans h)
  refine ⟨?_, service_nack_idle hm⟩
  rintro hw ⟨b, rfl⟩
  exact service_wdata_out hm hw b

/-! ## The transitions -/

/-- Settles O11: the row of the slave's write address byte, and `START_W` over the pointer kept or drawn. -/
theorem startForWriteOpensTransaction : Obligations.StartForWriteOpensTransaction := by
  unfold Obligations.StartForWriteOpensTransaction
  intro s hm
  refine ⟨rowOfWire_ownAddress hm .w, (dropHalfPointer s).bus.ptr, (dropHalfPointer s).draws, dropHalfPointer_keeps,
    congrArg Host.Outcome.next ?effect⟩
  case effect => rw [service_startW hm, busStartW, dropHalfPointer_frame]

/-- Settles O12: the start over the pointer kept or drawn, then the two acknowledges inside a read. -/
theorem readTransactionFetchesBytes : Obligations.ReadTransactionFetchesBytes := by
  unfold Obligations.ReadTransactionFetchesBytes
  intro s hm
  refine ⟨rowOfWire_ownAddress hm .r, ⟨(dropHalfPointer s).bus.ptr, (dropHalfPointer s).draws, dropHalfPointer_keeps,
    congrArg Host.Outcome.next ?start⟩, fun hp hd =>
    ⟨congrArg Host.Outcome.next ?ack, congrArg Host.Outcome.next ?nack⟩⟩
  case start => rw [service_startR hm, busStartR_eq]
  case ack =>
    rw [service_rack_read hm hp hd, busRdAck, fetchByte_eq, State.setPtr, regRead_bus]
    rfl
  case nack => exact service_rnack_read hm hp hd

/-- Settles O13: the pointer byte of each of the two phases, the loaded word by its number. -/
theorem pointerBytesLoadPointer : Obligations.PointerBytesLoadPointer := by
  unfold Obligations.PointerBytesLoadPointer
  intro s b hm
  exact ⟨fun hp => congrArg Host.Outcome.next (service_wdata_addrHi hm hp),
    fun hp => ⟨join16 s.bus.addrHi b, toNat_join16 _ _, congrArg Host.Outcome.next (service_wdata_addrLo hm hp)⟩⟩

/-- Settles O17: all three events are the end of the transaction, over the pointer kept or drawn. -/
theorem endOfTransaction : Obligations.EndOfTransaction := by
  unfold Obligations.EndOfTransaction
  intro s hm
  refine ⟨(dropHalfPointer s).bus.ptr, (dropHalfPointer s).draws, dropHalfPointer_keeps,
    congrArg Host.Outcome.next ?stop, congrArg Host.Outcome.next ?busErr,
    fun a rw ha => congrArg Host.Outcome.next ?startOther⟩
  case stop => rw [service_stop hm, busStop, closeTransaction_frame]; rfl
  case busErr => rw [service_busErr hm, busError, raiseProtocolReset_eq, closeTransaction_frame]; rfl
  case startOther => rw [service_startOther hm ha, busStartOther, closeTransaction_frame]; rfl

/-- Settles O18: the two protocol resets, the event in phase Idle, and the event while the bus is not Active. -/
theorem unexpectedEventsResetOrAreIgnored : Obligations.UnexpectedEventsResetOrAreIgnored := by
  unfold Obligations.UnexpectedEventsResetOrAreIgnored
  intro s e b
  refine ⟨fun hm hp hd => congrArg Host.Outcome.next ?wdataInRead,
    fun hm hw he => ⟨(dropHalfPointer s).bus.ptr, (dropHalfPointer s).draws, dropHalfPointer_keeps,
      congrArg Host.Outcome.next ?rackInWrite⟩,
    fun hm hp he => congrArg Host.Outcome.next ?notAddressed,
    fun hm => ⟨unservicedResponse e, congrArg Host.Outcome.next (service_inactive hm), ?nack, ?silent⟩⟩
  case wdataInRead =>
    have hne : s.bus.phase ≠ .addrLo := by simp [hp]
    rw [service_wdata_read hm hp hd, busWdataInRead, raiseProtocolReset_eq, closeTransaction, dropHalfPointer_of_ne hne]
    rfl
  case rackInWrite =>
    rw [service_ackEvent_expectsWrite hm hw he, busAckInWrite, raiseProtocolReset_eq, closeTransaction_frame]
    rfl
  case notAddressed =>
    rw [service_idle hm hp he, busIgnore, unservicedResponse_dataEvent he]
    rfl
  case nack => rintro (⟨a, rw, rfl⟩ | ⟨c, rfl⟩) <;> rfl
  case silent =>
    intro he
    cases e with
    | rack | rnack | stop | busErr => rfl
    | start | wdata => simp [WireEvent.isAckEvent] at he

end Sys2Proof.Machine
end

section
/-! What one tick and one pass of the super-loop do: O37 from the decimator seen consumer by consumer
(41_tick_scheduler.md R180 to R184), O38 from the parts of `LOOPSTEP` (R186 to R192). -/

namespace Sys2Proof.Machine

/-! ## The decimators of one tick -/

/-- The consumers in the order a tick clocks them (R180), which is the order the super-loop polls them (R187). -/
def consumers : List Consumer := [.ps, .rtc, .dio, .ind, .run]

theorem mem_consumers (i : Consumer) : i ∈ consumers := by cases i <;> decide

theorem schedTick_eq_foldl (c : Config) (sc : SchedState) :
    schedTick c sc = consumers.foldl (fun sc i => clockConsumer c i sc) (advanceSub c sc) := rfl

/-- A run of decimators leaves a consumer alone whose phase is not the sub-tick. -/
theorem foldl_clockConsumer_keeps {c : Config} {j : Consumer} (is : List Consumer) {sc : SchedState}
    (hj : sc.sub ≠ c.phase.get j) :
    (is.foldl (fun sc i => clockConsumer c i sc) sc).flag.get j = sc.flag.get j ∧
      (is.foldl (fun sc i => clockConsumer c i sc) sc).dec.get j = sc.dec.get j := by
  induction is generalizing sc with
  | nil => exact ⟨rfl, rfl⟩
  | cons i is ih =>
    obtain ⟨hflag, hdec, hsub, -⟩ := clockConsumer_get c i j sc
    obtain ⟨ihFlag, ihDec⟩ := ih (sc := clockConsumer c i sc) (by rwa [hsub])
    exact ⟨ihFlag.trans (by simp [hflag, hj]), ihDec.trans (by simp [hdec, hj])⟩

theorem schedTick_keeps {c : Config} {j : Consumer} {sc : SchedState}
    (hj : (sc.sub + 1) % c.ticksPerMs ≠ c.phase.get j) :
    (schedTick c sc).flag.get j = sc.flag.get j ∧ (schedTick c sc).dec.get j = sc.dec.get j := by
  rw [schedTick_eq_foldl]
  exact foldl_clockConsumer_keeps consumers (sc := advanceSub c sc) hj

/-- A tick changes a counter or a flag only of the consumer whose phase is the sub-tick it brings (R183). -/
theorem sub_eq_phase_of_oneTick_changed {s : State} {i : Consumer}
    (h : (oneTick s).sched.flag.get i ≠ s.sched.flag.get i ∨ (oneTick s).sched.dec.get i ≠ s.sched.dec.get i) :
    (s.sched.sub + 1) % s.cfg.ticksPerMs = s.cfg.phase.get i := by
  by_contra hne
  obtain ⟨hflag, hdec⟩ : (oneTick s).sched.flag.get i = s.sched.flag.get i ∧
      (oneTick s).sched.dec.get i = s.sched.dec.get i := by
    unfold oneTick
    split
    · exact ⟨rfl, rfl⟩
    · exact schedTick_keeps hne
  exact h.elim (· hflag) (· hdec)

/-- The consumers' phases are distinct (00_scope.md R7). -/
theorem phase_injective {c : Config} (hwf : c.wf = true) : Function.Injective c.phase.get := by
  have hnodup : (consumers.map c.phase.get).Nodup := by
    simp only [Config.wf, Config.wfCounters, Config.distinct5, Bool.and_eq_true, decide_eq_true_eq] at hwf
    tauto
  exact fun i j hij => List.inj_on_of_nodup_map hnodup (mem_consumers i) (mem_consumers j) hij

/-- Settles O37: a consumer that the tick changed has the new sub-tick as its phase, and the phases are distinct. -/
theorem tickClocksAtMostOneConsumer : Obligations.TickClocksAtMostOneConsumer := by
  unfold Obligations.TickClocksAtMostOneConsumer
  intro s t i j hwf htick hi hj
  obtain rfl : oneTick s = t := Host.Outcome.next.inj htick
  exact phase_injective hwf
    ((sub_eq_phase_of_oneTick_changed hi).symm.trans (sub_eq_phase_of_oneTick_changed hj))

/-! ## The parts of `LOOPSTEP` -/

/-- The evaluation's own row runs the consumer's evaluation, the clock's only outside a transaction (43_rtc.md
R225). -/
theorem exec_evalRow {i : Consumer} {s : State} (p : Pins) (h : i = .rtc → s.bus.inTransfer = false) :
    exec (evalRow i p) s = .next (evalConsumer i p s) := by
  cases i with
  | rtc => exact congrArg Host.Outcome.next (if_neg (by simp [h rfl]))
  | ps | dio | ind | run => rfl

/-- No evaluation ends the loop by itself; the loop's own move does (R191). -/
theorem evalConsumer_halted (i : Consumer) (p : Pins) (s : State) : (evalConsumer i p s).halted = s.halted := by
  cases i with
  | ps => exact (congrArg State.halted (evalPs_frame s) :)
  | rtc => exact (congrArg State.halted (evalRtc_frame s) :)
  | dio => exact (congrArg State.halted (evalDio_frame s p) :)
  | ind => exact (congrArg State.halted (evalInd_frame s) :)
  | run => exact (congrArg State.halted (evalRun_frame s) :)

theorem rearmWatchdog_eq (s : State) :
    rearmWatchdog s = { s with wdtCnt := if s.loopPos = .ps then 0 else s.wdtCnt } := by
  unfold rearmWatchdog
  split <;> rfl

theorem pollFlag_of_clear {s : State} (p : Pins) (h : s.sched.flag.get s.loopPos = false) : pollFlag p s = s :=
  if_neg (by simp [h])

theorem pollFlag_of_set {s : State} (p : Pins) (h : s.sched.flag.get s.loopPos = true) :
    pollFlag p s = evalConsumer s.loopPos p
      { s with sched := { s.sched with flag := s.sched.flag.set s.loopPos false } } :=
  if_pos h

theorem advanceLoop_of_running {s : State} (i : Consumer) (h : s.halted = false) :
    advanceLoop i s = { s with loopPos := i.next, halted := s.run == .sleep } := by
  simp [advanceLoop, h]

theorem advanceLoop_pollFlag_of_clear {s : State} (p : Pins) (hrun : s.halted = false)
    (hclear : s.sched.flag.get s.loopPos = false) :
    advanceLoop s.loopPos (pollFlag p s) = { s with loopPos := s.loopPos.next, halted := s.run == .sleep } := by
  rw [pollFlag_of_clear p hclear, advanceLoop_of_running _ hrun]

/-- The evaluation of a set flag leaves `halted` to the move that follows it. -/
theorem advanceLoop_pollFlag_of_set {s t : State} (p : Pins) (hrun : s.halted = false)
    (hset : s.sched.flag.get s.loopPos = true)
    (ht : evalConsumer s.loopPos p
      { s with sched := { s.sched with flag := s.sched.flag.set s.loopPos false } } = t) :
    advanceLoop s.loopPos (pollFlag p s) = { t with loopPos := s.loopPos.next, halted := t.run == .sleep } := by
  have hrun' : t.halted = false := by rw [← ht, evalConsumer_halted, hrun]
  rw [pollFlag_of_set p hset, ht, advanceLoop_of_running _ hrun']

theorem loopStep_of_enabled {s : State} (p : Pins) (hrun : s.halted = false) (hheld : s.loopHeld = false) :
    loopStep p s = advanceLoop s.loopPos (pollFlag p (rearmWatchdog s)) :=
  if_neg (by simp [hrun, hheld])

/-- A step that is not held and polls the clock's set flag stands outside a transaction (R192). -/
theorem inTransfer_of_not_loopHeld {s : State} (hheld : s.loopHeld = false)
    (hflag : s.sched.flag.get s.loopPos = true) (hpos : s.loopPos = .rtc) : s.bus.inTransfer = false := by
  have hrtc : s.sched.flag.rtc = true := by rwa [hpos] at hflag
  simpa [State.loopHeld, hpos, hrtc] using hheld

/-- Settles O38: an enabled step is the re-arm, the poll and the move in turn; the poll of a clear flag changes
nothing, and that of a set one runs the consumer's row. -/
theorem loopStepPollsOneFlag : Obligations.LoopStepPollsOneFlag := by
  unfold Obligations.LoopStepPollsOneFlag
  intro p s hrun hheld
  have hstep : exec (.loopStep p) s = .next (advanceLoop s.loopPos (pollFlag p (rearmWatchdog s))) :=
    congrArg Host.Outcome.next (loopStep_of_enabled p hrun hheld)
  rw [hstep, rearmWatchdog_eq]
  refine ⟨fun hclear => congrArg Host.Outcome.next (advanceLoop_pollFlag_of_clear p ?_ ?_), fun hset =>
    ⟨_, exec_evalRow p ?_, congrArg Host.Outcome.next (advanceLoop_pollFlag_of_set p ?_ ?_ rfl)⟩⟩
  · exact hrun
  · exact hclear
  · exact inTransfer_of_not_loopHeld hheld hset
  · exact hrun
  · exact hset

end Sys2Proof.Machine
end

section
/-! The real-time clock: one second (43_rtc.md R220 to R224), from which O46, and one evaluation (R225 to R230), from
which O48. -/

namespace Sys2Proof.Machine

/-! ## The correction counter as a signed number -/

theorem slt_zero_left (v : Word) : BitVec.slt 0#32 v = decide (0 < v.toInt) := by
  rw [BitVec.slt_eq_decide, BitVec.toInt_zero]

theorem slt_zero_right (v : Word) : BitVec.slt v 0#32 = decide (v.toInt < 0) := by
  rw [BitVec.slt_eq_decide, BitVec.toInt_zero]

/-- The move toward zero never leaves the signed range, the most negative value included (R231). -/
theorem toInt_towardZero (v : Word) : (towardZero v).toInt = v.toInt - v.toInt.sign := by
  unfold towardZero
  rw [slt_zero_left, slt_zero_right]
  have hlo : -2 ^ 31 ≤ v.toInt := BitVec.le_toInt v
  have hhi : v.toInt < 2 ^ 31 := BitVec.toInt_lt
  have hone : (1#32).toInt = 1 := rfl
  rcases lt_trichotomy v.toInt 0 with hneg | hzero | hpos
  · simp only [hneg, hneg.not_gt, decide_true, decide_false, Bool.false_eq_true, if_true, if_false,
      Int.sign_eq_neg_one_of_neg hneg, BitVec.toInt_add, hone]
    rw [Int.bmod_eq_of_le] <;> omega
  · simp [hzero]
  · simp only [hpos, decide_true, if_true, Int.sign_eq_one_of_pos hpos, BitVec.toInt_sub, hone]
    rw [Int.bmod_eq_of_le] <;> omega

theorem towardZero_eq_zero_iff (v : Word) : towardZero v = 0#32 ↔ v.toInt.natAbs ≤ 1 := by
  rw [← BitVec.toInt_inj, toInt_towardZero, BitVec.toInt_zero]
  rcases lt_trichotomy v.toInt 0 with hneg | hzero | hpos
  · rw [Int.sign_eq_neg_one_of_neg hneg]; omega
  · simp [hzero]
  · rw [Int.sign_eq_one_of_pos hpos]; omega

/-! ## One second -/

theorem rtcAdvance_frame (c : Config) (r : RtcState) :
    rtcAdvance c r = { r with count := (rtcAdvance c r).count, corrCnt := (rtcAdvance c r).corrCnt } := by
  unfold rtcAdvance rtcCorrect
  dsimp only
  split
  · split <;> rfl
  · rfl

theorem rtcAdvance_of_disabled (c : Config) {r : RtcState} (hen : r.corrEn = false) :
    rtcAdvance c r = { r with count := r.count + 1#32 } :=
  if_neg (by simp [hen])

theorem rtcAdvance_of_enabled (c : Config) {r : RtcState} (hen : r.corrEn = true) :
    rtcAdvance c r =
      if towardZero r.corrCnt = 0#32 then
        { r with
          count := if correctionAdds c r.corr then r.count + 1#32 + 1#32 else r.count + 1#32 - 1#32
          corrCnt := r.corr }
      else { r with count := r.count + 1#32, corrCnt := towardZero r.corrCnt } :=
  if_pos hen

/-- The second at which the correction counter reaches zero: a nudge and a reload (R222). -/
theorem rtcAdvance_of_nudge (c : Config) {r : RtcState} (hen : r.corrEn = true)
    (hcnt : r.corrCnt.toInt.natAbs ≤ 1) :
    rtcAdvance c r = { r with
      count := if decide (0 < r.corr.toInt) = c.corrPosAdds then r.count + 2#32 else r.count
      corrCnt := r.corr } := by
  have hadds : correctionAdds c r.corr = true ↔ decide (0 < r.corr.toInt) = c.corrPosAdds := by
    rw [correctionAdds, slt_zero_left, beq_iff_eq]
  have htwo : r.count + 1#32 + 1#32 = r.count + 2#32 := BitVec.add_assoc _ _ _
  rw [rtcAdvance_of_enabled c hen, if_pos ((towardZero_eq_zero_iff _).mpr hcnt), htwo, BitVec.add_sub_cancel]
  simp only [hadds]

/-- A second before the last one of a correction period (R222). -/
theorem rtcAdvance_of_counting (c : Config) {r : RtcState} (hen : r.corrEn = true)
    (hcnt : 1 < r.corrCnt.toInt.natAbs) :
    rtcAdvance c r = { r with count := r.count + 1#32, corrCnt := towardZero r.corrCnt } := by
  rw [rtcAdvance_of_enabled c hen, if_neg (mt (towardZero_eq_zero_iff _).mp hcnt.not_ge)]

/-- The comparator's two flags, whether it fires or not (R223). -/
theorem rtcAlarm_eq (s : State) :
    rtcAlarm s = { s with
      alarmPending := s.alarmPending || (s.rtc.alarmEn && s.rtc.count == s.rtc.alarm)
      rtc := { s.rtc with alarmEn := s.rtc.alarmEn && s.rtc.count != s.rtc.alarm } } := by
  unfold rtcAlarm
  split
  case isTrue hfires =>
    obtain ⟨harmed, hcount⟩ : s.rtc.alarmEn = true ∧ s.rtc.count = s.rtc.alarm := by simpa using hfires
    simp [harmed, hcount]
  case isFalse hquiet =>
    have hraise : (s.alarmPending || (s.rtc.alarmEn && s.rtc.count == s.rtc.alarm)) = s.alarmPending := by
      rw [Bool.eq_false_iff.mpr hquiet, Bool.or_false]
    have hkeep : (s.rtc.alarmEn && s.rtc.count != s.rtc.alarm) = s.rtc.alarmEn := by
      simpa using hquiet
    rw [hraise, hkeep]

/-- One second in full: the clock advanced and corrected, then compared (R220). -/
theorem oneSecond_eq (s : State) :
    oneSecond s = { s with
      alarmPending := s.alarmPending || (s.rtc.alarmEn && (rtcAdvance s.cfg s.rtc).count == s.rtc.alarm)
      rtc := { s.rtc with
        count := (rtcAdvance s.cfg s.rtc).count
        corrCnt := (rtcAdvance s.cfg s.rtc).corrCnt
        alarmEn := s.rtc.alarmEn && (rtcAdvance s.cfg s.rtc).count != s.rtc.alarm } } := by
  rw [oneSecond, rtcAlarm_eq, rtcAdvance_frame]

/-- Settles O46: the three kinds of second by the correction counter, and the comparator after any of them. -/
theorem secondAdvancesClock : Obligations.SecondAdvancesClock := by
  unfold Obligations.SecondAdvancesClock
  intro s
  refine ⟨_, congrArg Host.Outcome.next (oneSecond_eq s), fun hen => ?disabled, fun hen hcnt => ?nudge,
    fun hen hcnt => ?counting, rfl, rfl, rfl⟩
  case disabled => simp only [rtcAdvance_of_disabled s.cfg hen, and_self]
  case nudge => simp only [rtcAdvance_of_nudge s.cfg hen hcnt, and_self]
  case counting => simp only [rtcAdvance_of_counting s.cfg hen hcnt, toInt_towardZero, and_self]

/-! ## One evaluation of the clock -/

theorem commitTime_eq (s : State) :
    commitTime s = { s with
      rtc := { s.rtc with count := if s.timeCommit then s.be32 19 else s.rtc.count }, timeCommit := false } := by
  rw [commitTime_frame, commitTime]
  split <;> rfl

theorem commitAlarm_eq (s : State) :
    commitAlarm s = { s with
      rtc := { s.rtc with alarm := if s.alarmCommit then s.be32 23 else s.rtc.alarm }, alarmCommit := false } := by
  rw [commitAlarm_frame, commitAlarm]
  split <;> rfl

theorem commitCorr_eq (s : State) :
    commitCorr s = { s with
      rtc := { s.rtc with
        corr := if s.corrCommit then s.be32 27 else s.rtc.corr
        corrCnt := if s.corrCommit then s.be32 27 else s.rtc.corrCnt
        corrEn := if s.corrCommit then s.be32 27 != 0#32 else s.rtc.corrEn }
      corrCommit := false } := by
  rw [commitCorr_frame, commitCorr]
  split <;> rfl

/-- The alarm follows the bit of `WK` where the bit differs from the one last seen, and is kept otherwise (R229). -/
theorem armAlarm_eq (s : State) :
    armAlarm s = { s with rtc := { s.rtc with
      alarmEn := if s.wkAlarm = s.rtc.wkAlarmPrev then s.rtc.alarmEn else s.wkAlarm
      wkAlarmPrev := s.wkAlarm } } := by
  rw [armAlarm]
  cases s.wkAlarm <;> cases s.rtc.wkAlarmPrev <;> rfl

/-- The evaluation in full, but for the published bytes: the commits take the slots as they stand before it (R225). -/
theorem evalRtc_eq (s : State) :
    evalRtc s = publishTime { s with
      rtc := {
        count := if s.timeCommit then s.be32 19 else s.rtc.count
        alarm := if s.alarmCommit then s.be32 23 else s.rtc.alarm
        corr := if s.corrCommit then s.be32 27 else s.rtc.corr
        corrCnt := if s.corrCommit then s.be32 27 else s.rtc.corrCnt
        corrEn := if s.corrCommit then s.be32 27 != 0#32 else s.rtc.corrEn
        alarmEn := if s.wkAlarm = s.rtc.wkAlarmPrev then s.rtc.alarmEn else s.wkAlarm
        wkAlarmPrev := s.wkAlarm }
      timeCommit := false, alarmCommit := false, corrCommit := false } := by
  rw [evalRtc, commitTime_eq, commitAlarm_eq, commitCorr_eq, armAlarm_eq]
  rfl

theorem be32_setBe32_same (s : State) (k : Fin 32) (v : Word) : (s.setBe32 k v).be32 k = v := by
  simp [State.be32, slot_setBe32]

theorem be32_publishTime (s : State) : (publishTime s).be32 19 = (publishTime s).rtc.count :=
  be32_setBe32_same s 19 s.rtc.count

theorem exec_evalRtc_of_free {s : State} (hfree : s.bus.inTransfer = false) : exec .evalRtc s = .next (evalRtc s) :=
  congrArg Host.Outcome.next (if_neg (by simp [hfree]))

theorem not_mem_timeSlots {k : Fin 32} (hk : k.val < 19 ∨ 22 < k.val) : k ∉ Finset.Icc (19 : Fin 32) 22 := by
  rw [Finset.mem_Icc, Fin.le_def, Fin.le_def]
  change ¬(19 ≤ k.val ∧ k.val ≤ 22)
  omega

/-- Settles O48: the clock's fields by the evaluation in full, the slots by the writes of `publishTime` alone. -/
theorem clockEvaluationCommitsAndPublishes : Obligations.ClockEvaluationCommitsAndPublishes := by
  unfold Obligations.ClockEvaluationCommitsAndPublishes
  intro s hfree
  have hrtc := congrArg State.rtc (evalRtc_eq s)
  have hslots (k : Fin 32) (hk : k.val < 19 ∨ 22 < k.val) : (evalRtc s).slot k = s.slot k :=
    evalRtc_writesWithin s k (not_mem_timeSlots hk)
  exact ⟨evalRtc s, exec_evalRtc_of_free hfree, congrArg RtcState.count hrtc, congrArg RtcState.alarm hrtc,
    congrArg RtcState.corr hrtc, congrArg RtcState.corrCnt hrtc, congrArg RtcState.corrEn hrtc,
    congrArg RtcState.alarmEn hrtc, congrArg RtcState.wkAlarmPrev hrtc, be32_publishTime _, hslots,
    evalRtc_frame s⟩

end Sys2Proof.Machine
end

section
/-! The persistent store's evaluation (46_boundary_modules.md R300 to R303), one equation for each branch of R300, from
which O51. -/

namespace Sys2Proof.Machine

/-! ## Which branch of R300 an evaluation takes -/

/-- The two command bytes are distinct (00_scope.md R7). -/
theorem nvCmdCommit_ne_nvCmdReload {c : Config} (hwf : c.wf = true) : c.nvCmdCommit ≠ c.nvCmdReload := by
  simp only [Config.wf, Config.wfTriggers, Bool.and_eq_true, bne_iff_ne] at hwf
  tauto

theorem evalPs_of_writing {s : State} (hw : s.ps.state = .writing) : evalPs s = psWriteBack s := if_pos hw

theorem evalPs_of_commit {s : State} (hi : s.ps.state = .idle) (hc : s.slot 18 = s.cfg.nvCmdCommit) :
    evalPs s = psCommit s := by
  rw [evalPs, if_neg (by simp [hi]), if_pos hc]

/-- The reload byte is not taken for the commit byte, since a well-formed configuration holds them apart. -/
theorem evalPs_of_reload {s : State} (hwf : s.cfg.wf = true) (hi : s.ps.state = .idle)
    (hr : s.slot 18 = s.cfg.nvCmdReload) : evalPs s = psReload s := by
  have hne : s.slot 18 ≠ s.cfg.nvCmdCommit := hr ▸ (nvCmdCommit_ne_nvCmdReload hwf).symm
  rw [evalPs, if_neg (by simp [hi]), if_neg hne, if_pos hr]

theorem evalPs_of_no_command {s : State} (hi : s.ps.state = .idle) (hc : s.slot 18 ≠ s.cfg.nvCmdCommit)
    (hr : s.slot 18 ≠ s.cfg.nvCmdReload) : evalPs s = s := by
  rw [evalPs, if_neg (by simp [hi]), if_neg hc, if_neg hr]

/-! ## What each branch does -/

/-- One batch of a write-back in full: `NVCTL` turns idle only with the last batch, and only from busy (R301). -/
theorem psWriteBack_eq {s : State} (hw : s.ps.state = .writing) :
    psWriteBack s =
      { (if s.ps.idx + s.batch = Config.nvMirrorSize ∧ s.slot 18 = Config.nvBusy then s.setSlot 18 Config.nvIdle
          else s) with
        nv := Memory.copy s.mem s.ps.idx s.batch s.nv
        ps := {
          state := if s.ps.idx + s.batch = Config.nvMirrorSize then .idle else .writing
          idx := s.ps.idx + s.batch } } := by
  unfold psWriteBack
  by_cases hlast : s.ps.idx + s.batch = Config.nvMirrorSize
  · by_cases hbusy : s.slot 18 = Config.nvBusy
    · simp only [hlast, hbusy, and_self, if_true]; rfl
    · simp only [hlast, hbusy, and_false, if_true, if_false]
  · simp only [hlast, hw, false_and, if_false]

theorem slot_psWriteBack {s : State} (hw : s.ps.state = .writing) (k : Fin 32) :
    (psWriteBack s).slot k =
      if k = 18 ∧ s.ps.idx + s.batch = Config.nvMirrorSize ∧ s.slot 18 = Config.nvBusy then Config.nvIdle
      else s.slot k := by
  rw [psWriteBack_eq hw]
  by_cases hend : s.ps.idx + s.batch = Config.nvMirrorSize ∧ s.slot 18 = Config.nvBusy
  · simp only [hend, and_true]
    exact slot_setSlot s 18 k Config.nvIdle
  · simp only [hend, and_false, if_false]
    rfl

theorem psWriteBack_frame {s : State} (hw : s.ps.state = .writing) :
    psWriteBack s =
      { s with nv := (psWriteBack s).nv, ps := (psWriteBack s).ps, slots := (psWriteBack s).slots } := by
  rw [psWriteBack_eq hw]
  split <;> rfl

theorem read_nv_psCommit (s : State) {a : Nat} (ha : a < 1024) : Memory.read (psCommit s).nv a = s.cfg.nvErased :=
  (Memory.read_fill s.cfg.nvErased Config.nvMirrorSize a).trans (if_pos ha)

/-- A reload from Idle writes `mem` and `NVCTL` alone: the transaction ends as it stood, Idle (R303). -/
theorem psReload_frame {s : State} (hi : s.ps.state = .idle) :
    psReload s = { s with mem := (psReload s).mem, slots := (psReload s).slots } := by
  unfold psReload
  rw [← hi]
  rfl

/-- Settles O51: the four cases of R300, each by the equation of the branch taken. -/
theorem persistentStoreEvaluation : Obligations.PersistentStoreEvaluation := by
  unfold Obligations.PersistentStoreEvaluation
  intro s hwf _
  refine ⟨fun hw => ?writing, fun hi hc => ?commit, fun hi hr => ?reload, fun hi hc hr => ?nothing⟩
  case writing =>
    have hps := congrArg State.ps (psWriteBack_eq hw)
    have hnv : (psWriteBack s).nv = Memory.copy s.mem s.ps.idx s.batch s.nv := congrArg State.nv (psWriteBack_eq hw)
    exact ⟨psWriteBack s, s.batch, rfl, congrArg Host.Outcome.next (evalPs_of_writing hw),
      fun a => hnv ▸ Memory.read_copy s.mem s.ps.idx s.batch s.nv a, congrArg PsState.idx hps,
      congrArg PsState.state hps, slot_psWriteBack hw, psWriteBack_frame hw⟩
  case commit =>
    exact ⟨psCommit s, congrArg Host.Outcome.next (evalPs_of_commit hi hc), fun _ => read_nv_psCommit s,
      fun k => slot_setSlot _ 18 k Config.nvBusy, rfl⟩
  case reload =>
    exact ⟨psReload s, congrArg Host.Outcome.next (evalPs_of_reload hwf hi hr),
      Memory.read_below_append_above s.nv s.mem Config.nvMirrorSize,
      fun k => slot_setSlot _ 18 k Config.nvIdle, psReload_frame hi⟩
  case nothing => exact congrArg Host.Outcome.next (evalPs_of_no_command hi hc hr)

end Sys2Proof.Machine
end

section
/-! The power-on reset and the wake-up: the control slots that the listing of 70_reset_and_hazards.md R350 leaves, and
from them and the equation of the Wake entry action (R353) O41 and O42. -/

namespace Sys2Proof.Machine

/-! ## The control slots after `POWER_ON` -/

/-- The slots that the listing gives another value than 0x00, one write for each. -/
theorem resetSlots_eq_set (c : Config) :
    resetSlots c =
      ((((Vector.replicate 32 0x00#8).set 17 c.pressDefault).set 14 c.blDefault).set 1
        (packVersion c.versionMajor c.versionMinor)).set 0 c.idValue := rfl

/-- Slot 3 reads 0x00 here: the Wake entry action publishes it afterwards. -/
theorem slot_clearAll (s : State) (k : Fin 32) :
    (clearAll s).slot k =
      if k = 0 then s.cfg.idValue
      else if k = 1 then packVersion s.cfg.versionMajor s.cfg.versionMinor
      else if k = 14 then s.cfg.blDefault
      else if k = 17 then s.cfg.pressDefault
      else 0x00#8 := by
  have hslots : (clearAll s).slots = resetSlots s.cfg := rfl
  simp only [State.slot, hslots, resetSlots_eq_set, Vector.getElem_set, Vector.getElem_replicate, Fin.ext_iff,
    @eq_comm Nat k.val]
  rfl

/-- A slot that the reset does not name and the Wake entry action does not publish holds 0x00. -/
theorem slot_powerOnReset_eq_zero (p : Pins) (s : State) {k : Fin 32} (hk : k.val ∉ [0, 1, 3, 14, 17]) :
    (powerOnReset p s).slot k = 0x00#8 := by
  have hne : ∀ j : Fin 32, j.val ∈ [0, 1, 3, 14, 17] → k ≠ j := fun j hj e => hk (e ▸ hj)
  rw [powerOnReset_eq, slot_wakeEntry, slot_clearAll, if_neg (hne 3 (by decide)), if_neg (hne 0 (by decide)),
    if_neg (hne 1 (by decide)), if_neg (hne 14 (by decide)), if_neg (hne 17 (by decide))]

/-! ## The other parts of the state -/

/-- The reset loads the mirrored part of `mem` from `nv` and clears the rest. -/
theorem read_mem_powerOnReset (p : Pins) (s : State) (a : Nat) :
    Memory.read (powerOnReset p s).mem a = if a < 1024 then Memory.read s.nv a else 0x00#8 :=
  Memory.read_below s.nv Config.nvMirrorSize a

/-- No consumer is due or flagged after the Wake entry action (41_tick_scheduler.md R190). -/
theorem sched_wakeEntry_get (p : Pins) (s : State) (i : Consumer) :
    (wakeEntry p s).sched.dec.get i = 0 ∧ (wakeEntry p s).sched.flag.get i = false :=
  ⟨perConsumer_get_all 0 i, perConsumer_get_all false i⟩

/-- The results and the accumulators of all four channels are 0 after the reset. -/
theorem sampler_powerOnReset (p : Pins) (s : State) (j : Fin 4) :
    (powerOnReset p s).meas[j.val] = 0#16 ∧ (powerOnReset p s).filt.sum[j.val] = 0#32 :=
  ⟨Vector.getElem_replicate j.isLt, Vector.getElem_replicate j.isLt⟩

/-- A halted block wakes up by the Wake entry action (70_reset_and_hazards.md R352). -/
theorem wakeUp_of_halted (p : Pins) {s : State} (h : s.halted = true) :
    wakeUp p s = wakeEntry p { s with halted := false, run := .wake } := if_pos h

/-! ## The two statements -/

/-- Settles O41: the slots, `mem`, the sampler and the scheduler by their lemmas, every other item as the reset or the
Wake entry action assigns it. -/
theorem powerOnListing : Obligations.PowerOnListing := by
  unfold Obligations.PowerOnListing
  intro p s
  have hslot := slot_wakeEntry (clearAll s) p
  have hzero := fun k => slot_powerOnReset_eq_zero p s (k := k)
  have hmeas : ∀ k : Fin 32, 4 ≤ k.val → k.val ≤ 13 → (powerOnReset p s).slot k = 0x00#8 := fun k _ _ =>
    hzero k (by simp only [List.mem_cons, List.not_mem_nil, or_false]; omega)
  have htop : ∀ k : Fin 32, 18 ≤ k.val → (powerOnReset p s).slot k = 0x00#8 := fun k _ =>
    hzero k (by simp only [List.mem_cons, List.not_mem_nil, or_false]; omega)
  have hsched : ∀ i, (powerOnReset p s).sched.dec.get i = 0 ∧ (powerOnReset p s).sched.flag.get i = false :=
    sched_wakeEntry_get p (clearAll s)
  exact ⟨powerOnReset p s, rfl, read_mem_powerOnReset p s, rfl,
    slot_zero_powerOnReset p s, slot_one_powerOnReset p s, hzero 2 (by decide), hslot 3, hmeas,
    hslot 14, hzero 15 (by decide), hzero 16 (by decide), hslot 17, htop,
    rfl, rfl, rfl, rfl, rfl, rfl, rfl, sampler_powerOnReset p s, rfl, rfl, rfl, rfl,
    rfl, rfl, rfl, rfl, rfl, rfl, hsched, rfl, rfl, rfl, rfl, rfl, rfl, rfl⟩

/-- Settles O42: the wake-up is the Wake entry action run from `Wake`, so slot 3 is the one slot written and the
action's equation gives every other field. -/
theorem wakeupRunsWakeEntry : Obligations.WakeupRunsWakeEntry := by
  unfold Obligations.WakeupRunsWakeEntry
  intro p s hhalted
  exact ⟨_, congrArg Host.Outcome.next (wakeUp_of_halted p hhalted), slot_wakeEntry _ p,
    rfl, rfl, rfl, rfl, rfl, rfl, rfl, sched_wakeEntry_get p _, rfl, rfl, wakeEntry_eq _ p⟩

end Sys2Proof.Machine
end

section
/-! Every instruction by the operation behind it, so that a statement over the 80 rows is one case for each operation.
From that and the decoder's `step_cases`: O5, that every instruction completes, and O4, what a step does. -/

namespace Sys2Proof.Machine

/-! ## The operation behind an instruction -/

/-- `Effect s i t`: the instruction `i` runs an operation that takes `s` to `t`. The bus-event rows share one case, the
composite operations of the host another, the pointer rows, trigger bytes and host-written layouts a third, the five
evaluations a fourth. -/
inductive Effect (s : State) : Instr → State → Prop where
  | wire {i : Instr} (e : WireEvent) (hbus : i.isBusStep = true) : Effect s i (service e s)
  | host {i : Instr} (es : List WireEvent) (hbus : i.isBusStep = true) : Effect s i (transact es s)
  | access {i : Instr} (p : Half) (acc : Access) (hpart : i.isAgentStep = false) : Effect s i (accessAt p acc s)
  | statusFields (crit short : Bool) (reason : BitVec 3) :
      Effect s (.statusFields crit short reason) (s.setSlot 2 (packStatus s.cfg crit short reason))
  | dinFields (card button chg1 chg0 : Bool) :
      Effect s (.dinFields card button chg1 chg0) (s.setSlot 3 (packDin s.cfg card button chg1 chg0))
  | hangguard : Effect s .hangguard (hangGuard s)
  | suspend : Effect s .suspend (busSuspend s)
  | resume : Effect s .resume (busResume s)
  | shutdown : Effect s .shutdown (busShutdown s)
  | tick : Effect s .tick (oneTick s)
  | loopStep (p : Pins) : Effect s (.loopStep p) (loopStep p s)
  | eval (c : Consumer) (p : Pins) (hfree : c = .rtc → s.bus.inTransfer = false) :
      Effect s (evalRow c p) (evalConsumer c p s)
  | evalRtcHeld (hopen : s.bus.inTransfer = true) : Effect s .evalRtc s
  | wdtExpire (p : Pins) : Effect s (.wdtExpire p) (watchdogExpire p s)
  | second : Effect s .second (oneSecond s)
  | sample (ch : Channel) (v : Half) : Effect s (.sample ch v) (sampleResult ch v s)
  | powerOn (p : Pins) : Effect s (.powerOn p) (powerOnReset p s)
  | wakeup (p : Pins) : Effect s (.wakeup p) (wakeUp p s)

/-- Pin levels for the evaluations that sample none. -/
def anyPins : Pins := ⟨false, false, false, false⟩

/-- Every instruction answers a next state, the one its operation leaves. -/
theorem exec_effect (i : Instr) (s : State) : ∃ t, exec i s = .next t ∧ Effect s i t := by
  cases i with
  | startOther | startW | startR | addrHi | addrLo | wrData | rdAck | rdNack | stop | busErr | wdataInRead
  | rackInWrite | notAddressed | busInactive => exact ⟨_, rfl, .wire _ rfl⟩
  | write8 | write16 | write32 | read8 | read16 | read32 | nvwrite | nvread | setptr => exact ⟨_, rfl, .host _ rfl⟩
  | ptrPersist | slotId | slotVersion | slotStatus | slotDin | slotMeas0H | slotMeas0L | slotMeas1H | slotMeas1L
  | slotMeas2H | slotMeas2L | slotMeas3H | slotMeas3L | slotTempH | slotTempL | slotBl | slotWk | slotShdn | slotPress
  | slotNvctl | slotTime3 | slotTime2 | slotTime1 | slotTime0 | slotAlarm3 | slotAlarm2 | slotAlarm1 | slotAlarm0
  | slotCorr3 | slotCorr2 | slotCorr1 | slotCorr0 | slotSlot31 | shdnRequest | nvCommit | nvReload | nvOther
  | wkFields | versionFields => exact ⟨_, rfl, .access _ _ rfl⟩
  | statusFields => exact ⟨_, rfl, .statusFields _ _ _⟩
  | dinFields => exact ⟨_, rfl, .dinFields _ _ _ _⟩
  | hangguard => exact ⟨_, rfl, .hangguard⟩
  | suspend => exact ⟨_, rfl, .suspend⟩
  | resume => exact ⟨_, rfl, .resume⟩
  | shutdown => exact ⟨_, rfl, .shutdown⟩
  | tick => exact ⟨_, rfl, .tick⟩
  | loopStep p => exact ⟨_, rfl, .loopStep p⟩
  | evalRtc =>
    cases hopen : s.bus.inTransfer with
    | true => exact ⟨s, congrArg Host.Outcome.next (if_pos hopen), .evalRtcHeld hopen⟩
    | false => exact ⟨_, exec_evalRtc_of_free hopen, .eval .rtc anyPins fun _ => hopen⟩
  | evalPs => exact ⟨_, rfl, .eval .ps anyPins nofun⟩
  | evalDio p => exact ⟨_, rfl, .eval .dio p nofun⟩
  | evalInd => exact ⟨_, rfl, .eval .ind anyPins nofun⟩
  | evalRun => exact ⟨_, rfl, .eval .run anyPins nofun⟩
  | wdtExpire p => exact ⟨_, rfl, .wdtExpire p⟩
  | second => exact ⟨_, rfl, .second⟩
  | sample ch v => exact ⟨_, rfl, .sample ch v⟩
  | powerOn p => exact ⟨_, rfl, .powerOn p⟩
  | wakeup p => exact ⟨_, rfl, .wakeup p⟩

theorem effect_of_exec {i : Instr} {s t : State} (h : exec i s = .next t) : Effect s i t := by
  obtain ⟨u, hu, heffect⟩ := exec_effect i s
  obtain rfl : u = t := Host.Outcome.next.inj (hu.symm.trans h)
  exact heffect

/-! ## The field-by-field reading of the operations' frames -/

theorem accessAt_frame (p : Half) (acc : Access) (s : State) :
    accessAt p acc s = { s with
      mem := (accessAt p acc s).mem, slots := (accessAt p acc s).slots, timeCommit := (accessAt p acc s).timeCommit
      alarmCommit := (accessAt p acc s).alarmCommit, corrCommit := (accessAt p acc s).corrCommit
      bus := (accessAt p acc s).bus, out := (accessAt p acc s).out } := by
  cases acc with
  | point => rfl
  | read => rw [accessAt, fetchByte_eq, regRead_frame]; rfl
  | write b => rw [accessAt, storeByte_eq, regWrite_frame]; rfl

theorem hangGuard_frame (s : State) : hangGuard s = { s with bus := { s.bus with ack := (hangGuard s).bus.ack } } := by
  unfold hangGuard
  split <;> rfl

theorem oneTick_frame (s : State) :
    oneTick s = { s with sched := (oneTick s).sched, wdtCnt := (oneTick s).wdtCnt } := by
  unfold oneTick
  split <;> rfl

/-- A wake-up changes nothing, or it is the Wake entry action (70_reset_and_hazards.md R352). -/
theorem wakeUp_cases (p : Pins) (s : State) :
    (s.halted = true ∧ wakeUp p s = wakeEntry p { s with halted := false, run := .wake }) ∨
      (s.halted = false ∧ wakeUp p s = s) := by
  unfold wakeUp
  cases h : s.halted with
  | true => exact .inl ⟨rfl, rfl⟩
  | false => exact .inr ⟨rfl, rfl⟩

/-- A pass of the loop changes nothing, or it is the re-arm, the poll and the move in turn (41_tick_scheduler.md
R186). The poll evaluates a consumer, the clock's never during a transaction, or changes nothing. -/
theorem loopStep_cases (p : Pins) (s : State) :
    loopStep p s = s ∨
    (s.halted = false ∧ ∃ t : State, loopStep p s = advanceLoop s.loopPos t ∧
      (t = { s with wdtCnt := if s.loopPos = .ps then 0 else s.wdtCnt } ∨
        s.sched.flag.get s.loopPos = true ∧ (s.loopPos = .rtc → s.bus.inTransfer = false) ∧
          t = evalConsumer s.loopPos p { s with
            wdtCnt := if s.loopPos = .ps then 0 else s.wdtCnt
            sched := { s.sched with flag := s.sched.flag.set s.loopPos false } })) := by
  by_cases hstop : s.halted = true ∨ s.loopHeld = true
  · exact .inl (if_pos (by simpa using hstop))
  · simp only [not_or, Bool.not_eq_true] at hstop
    obtain ⟨hrun, hheld⟩ := hstop
    refine .inr ⟨hrun, _, loopStep_of_enabled p hrun hheld, ?_⟩
    rw [rearmWatchdog_eq]
    cases hflag : s.sched.flag.get s.loopPos with
    | false => exact .inl (pollFlag_of_clear p hflag)
    | true => exact .inr ⟨rfl, inTransfer_of_not_loopHeld hheld hflag, pollFlag_of_set p hflag⟩

/-! ## What no instruction changes -/

/-- Configuration and events to come are as before (assumption log 1, 4). -/
def KeepsHost (s t : State) : Prop := t.cfg = s.cfg ∧ t.inbox = s.inbox

theorem keepsHost_evalConsumer (i : Consumer) (p : Pins) (s : State) : KeepsHost s (evalConsumer i p s) := by
  cases i with
  | ps => exact ⟨(congrArg State.cfg (evalPs_frame s) :), (congrArg State.inbox (evalPs_frame s) :)⟩
  | rtc => exact ⟨(congrArg State.cfg (evalRtc_frame s) :), (congrArg State.inbox (evalRtc_frame s) :)⟩
  | dio => exact ⟨(congrArg State.cfg (evalDio_frame s p) :), (congrArg State.inbox (evalDio_frame s p) :)⟩
  | ind => exact ⟨(congrArg State.cfg (evalInd_frame s) :), (congrArg State.inbox (evalInd_frame s) :)⟩
  | run => exact ⟨(congrArg State.cfg (evalRun_frame s) :), (congrArg State.inbox (evalRun_frame s) :)⟩

theorem keepsHost_loopStep (p : Pins) (s : State) : KeepsHost s (loopStep p s) := by
  rcases loopStep_cases p s with h | ⟨-, t, h, rfl | ⟨-, -, rfl⟩⟩ <;> rw [h]
  · exact ⟨rfl, rfl⟩
  · exact ⟨rfl, rfl⟩
  · exact keepsHost_evalConsumer s.loopPos p _

theorem keepsHost_of_effect {s t : State} {i : Instr} (h : Effect s i t) : KeepsHost s t := by
  cases h with
  | wire e => exact ⟨(congrArg State.cfg (service_frame s e) :), (congrArg State.inbox (service_frame s e) :)⟩
  | host es => exact ⟨(congrArg State.cfg (transact_frame s es) :), (congrArg State.inbox (transact_frame s es) :)⟩
  | access p acc =>
    exact ⟨(congrArg State.cfg (accessAt_frame p acc s) :), (congrArg State.inbox (accessAt_frame p acc s) :)⟩
  | statusFields | dinFields | resume | powerOn => exact ⟨rfl, rfl⟩
  | hangguard => exact ⟨(congrArg State.cfg (hangGuard_frame s) :), (congrArg State.inbox (hangGuard_frame s) :)⟩
  | suspend => exact ⟨(congrArg State.cfg (detachBus_eq s _) :), (congrArg State.inbox (detachBus_eq s _) :)⟩
  | shutdown => exact ⟨(congrArg State.cfg (detachBus_eq s _) :), (congrArg State.inbox (detachBus_eq s _) :)⟩
  | tick => exact ⟨(congrArg State.cfg (oneTick_frame s) :), (congrArg State.inbox (oneTick_frame s) :)⟩
  | loopStep p => exact keepsHost_loopStep p s
  | eval c p => exact keepsHost_evalConsumer c p s
  | evalRtcHeld => exact ⟨rfl, rfl⟩
  | wdtExpire p => rcases watchdogExpire_cases p s with h | h <;> rw [h] <;> exact ⟨rfl, rfl⟩
  | second => exact ⟨(congrArg State.cfg (oneSecond_frame s) :), (congrArg State.inbox (oneSecond_frame s) :)⟩
  | sample ch v =>
    exact ⟨(congrArg State.cfg (sampleResult_frame s ch v) :), (congrArg State.inbox (sampleResult_frame s ch v) :)⟩
  | wakeup p => rcases wakeUp_cases p s with ⟨-, h⟩ | ⟨-, h⟩ <;> rw [h] <;> exact ⟨rfl, rfl⟩

end Sys2Proof.Machine
end

section
/-! The decoder and the encoder of events: every decoded instruction is well formed and its bytes come off the front
(O2), every well-formed instruction is decoded from its encoding (O1), words written out from the spec (O3). From the
first, what a step runs (O4) and that it goes on (O5). -/

namespace Sys2Proof

/-! ## What the decoder answers -/

/-- Where `d` is an instruction, the instruction is well formed in the context and the bytes after it end `r`. -/
def DecodedFrom (c : Ctx) (r : List Byte) (d : Decoded) : Prop :=
  ∀ i rest, d = .ok (i, rest) → i.wellFormed c = true ∧ rest <:+ r

variable {c : Ctx} {r : List Byte} {t : Tag}

theorem decodedFrom_error (e : DecodeError) : DecodedFrom c r (.error e) := nofun

theorem decodedFrom_ok {i : Instr} {rest : List Byte} (hi : i.wellFormed c = true) (hrest : rest <:+ r) :
    DecodedFrom c r (.ok (i, rest)) := by
  rintro _ _ ⟨⟩
  exact ⟨hi, hrest⟩

theorem DecodedFrom.mono {r' : List Byte} {d : Decoded} (h : DecodedFrom c r' d) (hr : r' <:+ r) : DecodedFrom c r d :=
  fun i rest hd => ⟨(h i rest hd).1, (h i rest hd).2.trans hr⟩

theorem decodedFrom_take1 {k : Byte → List Byte → Decoded} (h : ∀ b r, DecodedFrom c r (k b r)) :
    DecodedFrom c r (take1 t r k) := by
  unfold take1
  split
  · exact (h _ _).mono (List.suffix_cons _ _)
  · exact decodedFrom_error _

theorem decodedFrom_take16 {k : Half → List Byte → Decoded} (h : ∀ v r, DecodedFrom c r (k v r)) :
    DecodedFrom c r (take16 t r k) := by
  unfold take16
  split
  · exact (h _ _).mono (List.suffix_append [_, _] _)
  · exact decodedFrom_error _

theorem decodedFrom_take32 {k : Word → List Byte → Decoded} (h : ∀ v r, DecodedFrom c r (k v r)) :
    DecodedFrom c r (take32 t r k) := by
  unfold take32
  split
  · exact (h _ _).mono (List.suffix_append [_, _, _, _] _)
  · exact decodedFrom_error _

/-- The row that a wire event is in a context is the one that applies there (40_register_bus.md R151). -/
theorem wellFormed_rowOfWire (c : Ctx) (e : WireEvent) : (rowOfWire c e).wellFormed c = true := by
  unfold rowOfWire
  split
  next hm =>
    cases e with
    | start a rw =>
      by_cases ha : a = c.cfg.slaveAddr
      · cases rw <;> simp [ha, Instr.wellFormed, hm]
      · simp [ha, Instr.wellFormed, hm]
    | stop | busErr => simp [Instr.wellFormed, hm]
    | wdata b =>
      cases hp : c.phase <;> cases hd : c.dir <;>
        simp [rowOfWdata, hp, hd, hm, Instr.wellFormed, WireEvent.isDataEvent]
    | rack =>
      cases hp : c.phase <;> cases hd : c.dir <;>
        simp [rowOfRack, hp, hd, hm, Instr.wellFormed, WireEvent.isDataEvent, WireEvent.isAckEvent, Ctx.expectsWrite]
    | rnack =>
      cases hp : c.phase <;> cases hd : c.dir <;>
        simp [rowOfRnack, hp, hd, hm, Instr.wellFormed, WireEvent.isDataEvent, WireEvent.isAckEvent, Ctx.expectsWrite]
  next hm => simp [Instr.wellFormed, hm]

/-- A slot's row is well formed whatever the upper bits of its pointer in the control region. -/
theorem wellFormed_slotRow (c : Ctx) {x : BitVec 11} (hx : slotPrefixOk x = true) (k : Nat) (acc : Access) :
    (slotRow k x acc).wellFormed c = true := by
  unfold slotRow
  split <;> exact hx

/-- A pointer at or above 4096 has upper bits that are not all 0. -/
theorem slotPrefixOk_of_le {p : Half} (hp : 4096 ≤ p.toNat) : slotPrefixOk (p.extractLsb' 5 11) = true := by
  have hlt : p.toNat < 65536 := p.isLt
  simp only [slotPrefixOk, BitVec.extractLsb'_toNat, Nat.shiftRight_eq_div_pow, decide_eq_true_eq]
  omega

theorem wellFormed_rowOfPointer (c : Ctx) (p : Half) (acc : Access) : (rowOfPointer p acc).wellFormed c = true := by
  unfold rowOfPointer
  split
  · rfl
  next hp => exact wellFormed_slotRow c (slotPrefixOk_of_le (Nat.not_lt.mp hp)) _ acc

theorem decodedFrom_decodePointer : DecodedFrom c r (decodePointer r) := by
  refine decodedFrom_take16 fun p r => ?_
  split
  · split
    · exact decodedFrom_ok (wellFormed_rowOfPointer c p _) (List.suffix_append [_, _] _)
    · exact decodedFrom_error _
  · exact decodedFrom_error _

theorem decodedFrom_decodeSample : DecodedFrom c r (decodeSample c r) := by
  refine decodedFrom_take1 fun b r => ?_
  split
  · refine decodedFrom_take16 fun v r => ?_
    split
    next hv => exact decodedFrom_ok (decide_eq_true hv) List.suffix_rfl
    next => exact decodedFrom_error _
  · exact decodedFrom_error _

/-- The count of `nvwrite` has 16 bits. -/
theorem decodedFrom_decodeNvwrite : DecodedFrom c r (decodeNvwrite r) := by
  refine decodedFrom_take16 fun a r => decodedFrom_take16 fun n r => ?_
  have hn : n.toNat < 2 ^ 16 := n.isLt
  split
  · exact decodedFrom_error _
  · refine decodedFrom_ok (decide_eq_true ?_) (List.drop_suffix _ _)
    rw [List.length_take]
    omega

theorem decodedFrom_decodeNvread : DecodedFrom c r (decodeNvread r) := by
  refine decodedFrom_take16 fun a r => decodedFrom_take16 fun n r => ?_
  have hn : n.toNat < 2 ^ 16 := n.isLt
  split
  · exact decodedFrom_error _
  next hpos =>
    exact decodedFrom_ok (by simp only [Instr.wellFormed, Bool.and_eq_true, decide_eq_true_eq]; omega) List.suffix_rfl

theorem wellFormed_rowOfShdnByte (c : Ctx) (b : Byte) : (rowOfShdnByte c.cfg b).wellFormed c = true := by
  unfold rowOfShdnByte
  split <;> rfl

theorem wellFormed_rowOfNvctlByte (c : Ctx) (b : Byte) : (rowOfNvctlByte c.cfg b).wellFormed c = true := by
  unfold rowOfNvctlByte
  split
  · rfl
  · split
    · rfl
    next hc hr => simp [Instr.wellFormed, hc, hr]

/-! ## The fields of the layouts -/

/-- The places of the fields of `STATUS` lie in the byte and do not overlap (00_scope.md R7). -/
theorem stLayout_of_wf {c : Config} (hwf : c.wf = true) :
    c.stCritBit < 8 ∧ c.stShortBit < 8 ∧ c.stReasonLsb ≤ 5 ∧ c.stCritBit ≠ c.stShortBit ∧
      (∀ i < 3, c.stReasonLsb + i ≠ c.stCritBit) ∧ ∀ i < 3, c.stReasonLsb + i ≠ c.stShortBit := by
  simp only [Config.wf, Config.wfLayout, Bool.and_eq_true, decide_eq_true_eq, List.nodup_cons, List.mem_cons,
    List.not_mem_nil, or_false, not_or] at hwf
  obtain ⟨⟨-, hlayout⟩, -⟩ := hwf
  refine ⟨by tauto, by tauto, by tauto, by tauto, fun i hi => ?_, fun i hi => ?_⟩ <;> omega

/-- The places of the fields of `DIN` lie in the byte and are distinct (00_scope.md R7). -/
theorem diLayout_of_wf {c : Config} (hwf : c.wf = true) :
    c.diCardBit < 8 ∧ c.diBtnBit < 8 ∧ c.diChgLsb + 1 < 8 ∧ c.diBtnBit ≠ c.diCardBit ∧
      c.diChgLsb + 1 ≠ c.diCardBit ∧ c.diChgLsb + 1 ≠ c.diBtnBit ∧ c.diChgLsb ≠ c.diCardBit ∧
      c.diChgLsb ≠ c.diBtnBit := by
  simp only [Config.wf, Config.wfLayout, Bool.and_eq_true, decide_eq_true_eq, List.nodup_cons, List.mem_cons,
    List.not_mem_nil, or_false, not_or] at hwf
  omega

/-- The places of the fields of `WK` lie in the byte and are distinct (00_scope.md R7). -/
theorem wkLayout_of_wf {c : Config} (hwf : c.wf = true) :
    c.wkAlarmBit < 8 ∧ c.wkChgStartBit < 8 ∧ c.wkChgDoneBit < 8 ∧ c.wkAlarmBit ≠ c.wkChgStartBit ∧
      c.wkAlarmBit ≠ c.wkChgDoneBit ∧ c.wkChgStartBit ≠ c.wkChgDoneBit := by
  simp only [Config.wf, Config.wfLayout, Bool.and_eq_true, decide_eq_true_eq, List.nodup_cons, List.mem_cons,
    List.not_mem_nil, or_false, not_or] at hwf
  omega

section
variable (c : Config) {n : Nat} (hn : n < 8)
include hn

/-- Each named bit of a `STATUS` byte is the field's, every other bit 0. -/
theorem getLsbD_packStatus (crit short : Bool) (reason : BitVec 3) :
    (packStatus c crit short reason).getLsbD n =
      if n = c.stCritBit then crit else if n = c.stShortBit then short
      else if c.stReasonLsb ≤ n ∧ n < c.stReasonLsb + 3 then reason.getLsbD (n - c.stReasonLsb) else false := by
  simp only [packStatus, getLsbD_putBit, getLsbD_putField3, hn, and_true, BitVec.getLsbD_zero]

/-- Each named bit of a `DIN` byte is the field's, every other bit 0. -/
theorem getLsbD_packDin (card button chg1 chg0 : Bool) :
    (packDin c card button chg1 chg0).getLsbD n =
      if n = c.diCardBit then card else if n = c.diBtnBit then button
      else if n = c.diChgLsb + 1 then chg1 else if n = c.diChgLsb then chg0 else false := by
  simp only [packDin, getLsbD_putBit, hn, and_true, BitVec.getLsbD_zero]

/-- Each named bit of a `WK` byte is the field's, every other bit as given. -/
theorem getLsbD_packWk (alarm chgStart chgDone : Bool) (x : Byte) :
    (packWk c alarm chgStart chgDone x).getLsbD n =
      if n = c.wkChgDoneBit then chgDone else if n = c.wkChgStartBit then chgStart
      else if n = c.wkAlarmBit then alarm else x.getLsbD n := by
  simp only [packWk, getLsbD_putBit, hn, and_true]

end

/-- The unnamed bits of a `WK` byte are 0 at the three named places, wherever these are. -/
theorem getLsbD_wkUnnamed (c : Config) (b : Byte) {n : Nat}
    (h : n = c.wkAlarmBit ∨ n = c.wkChgStartBit ∨ n = c.wkChgDoneBit) : (wkUnnamed c b).getLsbD n = false := by
  by_cases hn : n < 8
  · rw [wkUnnamed, getLsbD_packWk c hn]
    rcases h with rfl | rfl | rfl <;> simp
  · exact BitVec.getLsbD_of_ge _ _ (Nat.not_lt.mp hn)

theorem wellFormed_rowOfWkByte (c : Ctx) (b : Byte) : (rowOfWkByte c.cfg b).wellFormed c = true := by
  simp [rowOfWkByte, Instr.wellFormed, getLsbD_wkUnnamed]

/-- The instruction a tag's body answers is well formed, and takes its operands off the front. -/
theorem decodedFrom_decodeBody : DecodedFrom c r (decodeBody c t r) := by
  cases t with
  | start | wdata => exact decodedFrom_take1 fun _ _ => decodedFrom_ok (wellFormed_rowOfWire c _) List.suffix_rfl
  | rack | rnack | stop | busErr => exact decodedFrom_ok (wellFormed_rowOfWire c _) List.suffix_rfl
  | hangguard | suspend | resume | shutdown | tick | evalPs | evalRtc | evalInd | evalRun | second =>
    exact decodedFrom_ok rfl List.suffix_rfl
  | loopStep | evalDio | wdtExpire | powerOn | wakeup | statusFields | dinFields | versionFields =>
    exact decodedFrom_take1 fun _ _ => decodedFrom_ok rfl List.suffix_rfl
  | write8 =>
    rw [decodeBody]
    exact decodedFrom_take16 fun _ _ => decodedFrom_take1 fun _ _ => decodedFrom_ok rfl List.suffix_rfl
  | write16 =>
    rw [decodeBody]
    exact decodedFrom_take16 fun _ _ => decodedFrom_take16 fun _ _ => decodedFrom_ok rfl List.suffix_rfl
  | write32 =>
    rw [decodeBody]
    exact decodedFrom_take16 fun _ _ => decodedFrom_take32 fun _ _ => decodedFrom_ok rfl List.suffix_rfl
  | read8 | read16 | read32 | setptr =>
    rw [decodeBody]
    exact decodedFrom_take16 fun _ _ => decodedFrom_ok rfl List.suffix_rfl
  | sample => exact decodedFrom_decodeSample
  | nvwrite => exact decodedFrom_decodeNvwrite
  | nvread => exact decodedFrom_decodeNvread
  | pointer => exact decodedFrom_decodePointer
  | shdnByte => exact decodedFrom_take1 fun b _ => decodedFrom_ok (wellFormed_rowOfShdnByte c b) List.suffix_rfl
  | nvctlByte => exact decodedFrom_take1 fun b _ => decodedFrom_ok (wellFormed_rowOfNvctlByte c b) List.suffix_rfl
  | wkFields => exact decodedFrom_take1 fun b _ => decodedFrom_ok (wellFormed_rowOfWkByte c b) List.suffix_rfl

/-- A decoded instruction is well formed, and its bytes, at least one, come off the front. -/
theorem decode_ok {bs : List Byte} {i : Instr} {rest : List Byte} (h : decode c bs = .ok (i, rest)) :
    i.wellFormed c = true ∧ rest <:+ bs ∧ rest.length < bs.length := by
  cases bs with
  | nil => exact absurd h nofun
  | cons b r =>
    unfold decode at h
    dsimp only at h
    split at h
    · obtain ⟨hi, hrest⟩ := decodedFrom_decodeBody i rest h
      exact ⟨hi, hrest.trans (List.suffix_cons b r), Nat.lt_succ_of_le hrest.length_le⟩
    · exact absurd h nofun

/-- Settles O2: what the first byte's kind of event answers, operand by operand. -/
theorem decodedIsWellFormed : Obligations.DecodedIsWellFormed := by
  unfold Obligations.DecodedIsWellFormed
  intro c bs i rest h
  obtain ⟨hi, -, hlen⟩ := decode_ok h
  exact ⟨hi, hlen⟩

/-- Settles O3: each of the twelve words by running the decoder on it. -/
theorem decodesSpecWords : Obligations.DecodesSpecWords := by
  unfold Obligations.DecodesSpecWords
  exact ⟨rfl, rfl, rfl, rfl, rfl, rfl, rfl, rfl, rfl, rfl, rfl, rfl⟩

/-! ## An encoded instruction is decoded -/

/-- A wire event's bytes are decoded to the row that the event is in the context. -/
theorem decode_encodeWire (c : Ctx) (e : WireEvent) (rest : List Byte) :
    decode c (encodeWire e ++ rest) = .ok (rowOfWire c e, rest) := by
  cases e with
  | start a rw =>
    rw [encodeWire, List.cons_append, decode_tag]
    simp only [decodeBody, List.cons_append, List.nil_append, take1_cons, Machine.startOfByte_addressByte]
  | wdata | rack | rnack | stop | busErr => simp only [encodeWire, List.cons_append, List.nil_append, decode_tag]; rfl

/-- A bus-event row in its own context is the row of the event it is encoded as. -/
theorem decode_encode_of_row {c : Ctx} {i : Instr} {e : WireEvent} (rest : List Byte)
    (henc : encode c.cfg i = encodeWire e) (hrow : rowOfWire c e = i) :
    decode c (encode c.cfg i ++ rest) = .ok (i, rest) := by
  rw [henc, decode_encodeWire, hrow]

theorem accessOfBytes_bytesOfAccess (acc : Access) (rest : List Byte) :
    ∃ a d, bytesOfAccess acc ++ rest = a :: d :: rest ∧ accessOfBytes a d = some acc := by
  cases acc with
  | point => exact ⟨_, _, rfl, rfl⟩
  | read => exact ⟨_, _, rfl, rfl⟩
  | write d => exact ⟨_, _, rfl, accessOfBytes_write d⟩

/-- A pointer row's bytes are decoded to the row that the pointer selects (20_memory.md R60). -/
theorem decode_encodePointer (c : Ctx) (p : Half) (acc : Access) (rest : List Byte) :
    decode c (encodePointer p acc ++ rest) = .ok (rowOfPointer p acc, rest) := by
  obtain ⟨a, d, hbytes, hacc⟩ := accessOfBytes_bytesOfAccess acc rest
  rw [encodePointer, List.cons_append, decode_tag, List.append_assoc, hbytes]
  show decodePointer _ = _
  rw [decodePointer, take16_bytes16]
  simp only [hacc]

theorem rowOfPointer_persistPointer (p : BitVec 12) (acc : Access) :
    rowOfPointer (persistPointer p) acc = .ptrPersist p acc := by
  have hbits : (persistPointer p).extractLsb' 0 12 = p := BitVec.extractLsb'_append_eq_right
  rw [rowOfPointer, if_pos (Machine.persistPointer_low p), hbits]

theorem rowOfPointer_slotPointer {x : BitVec 11} {k : Nat} (hk : k < 32) (hx : slotPrefixOk x = true) (acc : Access) :
    rowOfPointer (slotPointer x k) acc = slotRow k x acc := by
  have hbits : (slotPointer x k).extractLsb' 5 11 = x := BitVec.extractLsb'_append_eq_left
  have hslot : (slotPointer x k).toNat % Config.ctrlSlots = k := by
    rw [Machine.toNat_slotPointer x k hk, Config.ctrlSlots]
    omega
  rw [rowOfPointer, if_neg (Machine.slotPointer_high x k hk hx), hbits, hslot]

theorem decode_encodeSlot (c : Ctx) {x : BitVec 11} {k : Nat} (hk : k < 32) (hx : slotPrefixOk x = true) (acc : Access)
    (rest : List Byte) : decode c (encodeSlot k x acc ++ rest) = .ok (slotRow k x acc, rest) := by
  rw [encodeSlot, decode_encodePointer, rowOfPointer_slotPointer hk hx]

/-- The channel byte of a sample is decoded to the channel. -/
theorem channelOfByte_number (ch : Channel) : channelOfByte (BitVec.ofNat 8 ch.number) = some ch := by
  cases ch with
  | analog j => fin_cases j <;> rfl
  | temperature => rfl

theorem toNat_ofNat16 {n : Nat} (hn : n < 2 ^ 16) : (BitVec.ofNat 16 n).toNat = n := by
  rw [BitVec.toNat_ofNat, Nat.mod_eq_of_lt hn]

theorem rowOfNvctlByte_commit (c : Config) : rowOfNvctlByte c c.nvCmdCommit = .nvCommit := if_pos rfl

theorem rowOfNvctlByte_reload {c : Config} (hwf : c.wf = true) : rowOfNvctlByte c c.nvCmdReload = .nvReload := by
  rw [rowOfNvctlByte, if_neg (Machine.nvCmdCommit_ne_nvCmdReload hwf).symm, if_pos rfl]

theorem rowOfNvctlByte_other {c : Config} {v : Byte} (hc : v ≠ c.nvCmdCommit) (hr : v ≠ c.nvCmdReload) :
    rowOfNvctlByte c v = .nvOther v := by
  rw [rowOfNvctlByte, if_neg hc, if_neg hr]

/-- A packed `STATUS` byte gives its fields back. -/
theorem rowOfStatusByte_packStatus {c : Config} (hwf : c.wf = true) (crit short : Bool) (reason : BitVec 3) :
    rowOfStatusByte c (packStatus c crit short reason) = .statusFields crit short reason := by
  obtain ⟨hcrit, hshort, hlsb, hne, hrc, hrs⟩ := stLayout_of_wf hwf
  have hreason : getField3 (packStatus c crit short reason) c.stReasonLsb = reason := by
    refine BitVec.eq_of_getLsbD_eq fun i hi => ?_
    have hbit : c.stReasonLsb + i < 8 := by omega
    rw [getLsbD_getField3, getLsbD_packStatus c hbit, if_neg (hrc i hi), if_neg (hrs i hi),
      if_pos ⟨Nat.le_add_right _ _, by omega⟩, Nat.add_sub_cancel_left, decide_eq_true hi, Bool.true_and]
  rw [rowOfStatusByte, hreason, getLsbD_packStatus c hcrit, if_pos rfl, getLsbD_packStatus c hshort, if_neg hne.symm,
    if_pos rfl]

/-- A packed `DIN` byte gives its fields back. -/
theorem rowOfDinByte_packDin {c : Config} (hwf : c.wf = true) (card button chg1 chg0 : Bool) :
    rowOfDinByte c (packDin c card button chg1 chg0) = .dinFields card button chg1 chg0 := by
  obtain ⟨hcard, hbtn, hchg, hbc, h1c, h1b, h0c, h0b⟩ := diLayout_of_wf hwf
  rw [rowOfDinByte, getLsbD_packDin c hcard, getLsbD_packDin c hbtn, getLsbD_packDin c hchg,
    getLsbD_packDin c (Nat.lt_of_succ_lt hchg)]
  simp [hbc, h1c, h1b, h0c, h0b]

/-- A packed `WK` byte gives its fields and its unnamed bits back. -/
theorem rowOfWkByte_packWk {c : Config} (hwf : c.wf = true) (alarm chgStart chgDone : Bool) {x : Byte}
    (ha : x.getLsbD c.wkAlarmBit = false) (hs : x.getLsbD c.wkChgStartBit = false)
    (hd : x.getLsbD c.wkChgDoneBit = false) :
    rowOfWkByte c (packWk c alarm chgStart chgDone x) = .wkFields alarm chgStart chgDone x := by
  obtain ⟨halarm, hstart, hdone, has, had, hsd⟩ := wkLayout_of_wf hwf
  have hrest : wkUnnamed c (packWk c alarm chgStart chgDone x) = x := by
    refine byte_ext fun n hn => ?_
    rw [wkUnnamed, getLsbD_packWk c hn, getLsbD_packWk c hn]
    by_cases h1 : n = c.wkChgDoneBit
    · simp [h1, hd]
    by_cases h2 : n = c.wkChgStartBit
    · simp [h2, hs]
    by_cases h3 : n = c.wkAlarmBit
    · simp [h3, ha]
    simp [h1, h2, h3]
  rw [rowOfWkByte, hrest, getLsbD_packWk c halarm, getLsbD_packWk c hstart, getLsbD_packWk c hdone]
  simp [has, had, hsd]

/-- A packed `VERSION` byte gives its nibbles back. -/
theorem extract_packVersion (major minor : BitVec 4) :
    (packVersion major minor).extractLsb' 4 4 = major ∧ (packVersion major minor).extractLsb' 0 4 = minor :=
  ⟨BitVec.extractLsb'_append_eq_left, BitVec.extractLsb'_append_eq_right⟩

/-- `RACK` and `RNACK` in a phase that expects a byte from the host (R141). -/
theorem rowOfWire_rackInWrite {c : Ctx} {e : WireEvent} (hi : (Instr.rackInWrite e).wellFormed c = true) :
    rowOfWire c e = .rackInWrite e := by
  simp only [Instr.wellFormed, Ctx.expectsWrite, Bool.and_eq_true, Bool.or_eq_true, beq_iff_eq, or_assoc] at hi
  obtain ⟨⟨hm, hw⟩, he⟩ := hi
  cases e with
  | rack => rcases hw with hp | hp | ⟨hp, hd⟩ <;> simp [rowOfWire, rowOfRack, *]
  | rnack => rcases hw with hp | hp | ⟨hp, hd⟩ <;> simp [rowOfWire, rowOfRnack, *]
  | start | wdata | stop | busErr => exact absurd he Bool.false_ne_true

/-- `WDATA`, `RACK` and `RNACK` in phase Idle (R142). -/
theorem rowOfWire_notAddressed {c : Ctx} {e : WireEvent} (hi : (Instr.notAddressed e).wellFormed c = true) :
    rowOfWire c e = .notAddressed e := by
  simp only [Instr.wellFormed, Bool.and_eq_true, beq_iff_eq] at hi
  obtain ⟨⟨hm, hp⟩, he⟩ := hi
  cases e with
  | wdata => simp [rowOfWire, rowOfWdata, hm, hp]
  | rack => simp [rowOfWire, rowOfRack, hm, hp]
  | rnack => simp [rowOfWire, rowOfRnack, hm, hp]
  | start | stop | busErr => exact absurd he Bool.false_ne_true

theorem decode_encode_sample {c : Ctx} {v : Half} (hv : v.toNat < 2 ^ c.cfg.adcBits) (ch : Channel) (rest : List Byte) :
    decode c (encode c.cfg (.sample ch v) ++ rest) = .ok (.sample ch v, rest) := by
  rw [encode, List.append_assoc, List.cons_append, decode_tag]
  show decodeSample _ _ = _
  rw [decodeSample, List.cons_append, List.nil_append, take1_cons]
  simp only [channelOfByte_number, take16_bytes16]
  exact if_pos hv

theorem decode_encode_nvwrite (c : Ctx) (a : Half) {d : List Byte} (hd : d.length < 2 ^ 16) (rest : List Byte) :
    decode c (encode c.cfg (.nvwrite a d) ++ rest) = .ok (.nvwrite a d, rest) := by
  rw [encode, List.cons_append, decode_tag]
  show decodeNvwrite _ = _
  simp only [decodeNvwrite, List.append_assoc, take16_bytes16, toNat_ofNat16 hd, List.take_left, List.drop_left]
  exact if_neg (by simp)

theorem decode_encode_nvread (c : Ctx) (a : Half) {n : Nat} (hpos : 1 ≤ n) (hn : n < 2 ^ 16) (rest : List Byte) :
    decode c (encode c.cfg (.nvread a n) ++ rest) = .ok (.nvread a n, rest) := by
  rw [encode, List.cons_append, decode_tag]
  show decodeNvread _ = _
  simp only [decodeNvread, List.append_assoc, take16_bytes16, toNat_ofNat16 hn]
  exact if_neg (Nat.ne_of_gt hpos)

/-- Settles O1: a bus-event row by the event behind it, a pointer row by its pointer, a layout row by its fields, every
other row operand by operand. -/
theorem decodeEncodeAgree : Obligations.DecodeEncodeAgree := by
  unfold Obligations.DecodeEncodeAgree
  intro c i rest hwf hi
  cases i with
  | startOther a rw =>
    obtain ⟨hm, ha⟩ : c.mode = .active ∧ a ≠ c.cfg.slaveAddr := by simpa [Instr.wellFormed] using hi
    exact decode_encode_of_row (e := .start a rw) rest rfl (by simp [rowOfWire, hm, ha])
  | startW =>
    have hm : c.mode = .active := by simpa [Instr.wellFormed] using hi
    exact decode_encode_of_row (e := .start c.cfg.slaveAddr .w) rest rfl (by simp [rowOfWire, hm])
  | startR =>
    have hm : c.mode = .active := by simpa [Instr.wellFormed] using hi
    exact decode_encode_of_row (e := .start c.cfg.slaveAddr .r) rest rfl (by simp [rowOfWire, hm])
  | stop => exact decode_encode_of_row (e := .stop) rest rfl (if_pos (by simpa [Instr.wellFormed] using hi))
  | busErr => exact decode_encode_of_row (e := .busErr) rest rfl (if_pos (by simpa [Instr.wellFormed] using hi))
  | addrHi b =>
    obtain ⟨hm, hp⟩ : c.mode = .active ∧ c.phase = .addrHi := by simpa [Instr.wellFormed] using hi
    exact decode_encode_of_row (e := .wdata b) rest rfl (by simp [rowOfWire, rowOfWdata, hm, hp])
  | addrLo b =>
    obtain ⟨hm, hp⟩ : c.mode = .active ∧ c.phase = .addrLo := by simpa [Instr.wellFormed] using hi
    exact decode_encode_of_row (e := .wdata b) rest rfl (by simp [rowOfWire, rowOfWdata, hm, hp])
  | wrData b =>
    obtain ⟨⟨hm, hp⟩, hd⟩ : (c.mode = .active ∧ c.phase = .data) ∧ c.dir = .w := by simpa [Instr.wellFormed] using hi
    exact decode_encode_of_row (e := .wdata b) rest rfl (by simp [rowOfWire, rowOfWdata, hm, hp, hd])
  | wdataInRead b =>
    obtain ⟨⟨hm, hp⟩, hd⟩ : (c.mode = .active ∧ c.phase = .data) ∧ c.dir = .r := by simpa [Instr.wellFormed] using hi
    exact decode_encode_of_row (e := .wdata b) rest rfl (by simp [rowOfWire, rowOfWdata, hm, hp, hd])
  | rdAck =>
    obtain ⟨⟨hm, hp⟩, hd⟩ : (c.mode = .active ∧ c.phase = .data) ∧ c.dir = .r := by simpa [Instr.wellFormed] using hi
    exact decode_encode_of_row (e := .rack) rest rfl (by simp [rowOfWire, rowOfRack, hm, hp, hd])
  | rdNack =>
    obtain ⟨⟨hm, hp⟩, hd⟩ : (c.mode = .active ∧ c.phase = .data) ∧ c.dir = .r := by simpa [Instr.wellFormed] using hi
    exact decode_encode_of_row (e := .rnack) rest rfl (by simp [rowOfWire, rowOfRnack, hm, hp, hd])
  | rackInWrite e => exact decode_encode_of_row rest rfl (rowOfWire_rackInWrite hi)
  | notAddressed e => exact decode_encode_of_row rest rfl (rowOfWire_notAddressed hi)
  | busInactive e => exact decode_encode_of_row rest rfl (if_neg (by simpa [Instr.wellFormed] using hi))
  | hangguard | suspend | resume | shutdown | tick | evalPs | evalRtc | evalInd | evalRun | second =>
    exact decode_tag c _ rest
  | loopStep p | evalDio p | wdtExpire p | powerOn p | wakeup p => simp [encode, decodeBody]
  | write8 | write16 | write32 | read8 | read16 | read32 | setptr => simp [encode, decodeBody]
  | sample ch v => exact decode_encode_sample (of_decide_eq_true hi) ch rest
  | nvwrite a d => exact decode_encode_nvwrite c a (of_decide_eq_true hi) rest
  | nvread a n =>
    obtain ⟨hpos, hn⟩ : 1 ≤ n ∧ n < 2 ^ 16 := by simpa [Instr.wellFormed] using hi
    exact decode_encode_nvread c a hpos hn rest
  | ptrPersist p acc => exact (decode_encodePointer c _ acc rest).trans (by rw [rowOfPointer_persistPointer])
  | slotId | slotVersion | slotStatus | slotDin | slotMeas0H | slotMeas0L | slotMeas1H | slotMeas1L
  | slotMeas2H | slotMeas2L | slotMeas3H | slotMeas3L | slotTempH | slotTempL | slotBl | slotWk | slotShdn | slotPress
  | slotNvctl | slotTime3 | slotTime2 | slotTime1 | slotTime0 | slotAlarm3 | slotAlarm2 | slotAlarm1 | slotAlarm0
  | slotCorr3 | slotCorr2 | slotCorr1 | slotCorr0 | slotSlot31 => exact decode_encodeSlot c (by decide) hi _ rest
  | shdnRequest => simp [encode, decodeBody, rowOfShdnByte]
  | nvCommit => simp [encode, decodeBody, rowOfNvctlByte_commit]
  | nvReload => simp [encode, decodeBody, rowOfNvctlByte_reload hwf]
  | nvOther v =>
    obtain ⟨hc, hr⟩ : v ≠ c.cfg.nvCmdCommit ∧ v ≠ c.cfg.nvCmdReload := by simpa [Instr.wellFormed] using hi
    simp [encode, decodeBody, rowOfNvctlByte_other hc hr]
  | statusFields crit short reason => simp [encode, decodeBody, rowOfStatusByte_packStatus hwf]
  | dinFields card button chg1 chg0 => simp [encode, decodeBody, rowOfDinByte_packDin hwf]
  | wkFields alarm chgStart chgDone x =>
    simp only [Instr.wellFormed, Bool.and_eq_true, Bool.not_eq_true'] at hi
    obtain ⟨⟨ha, hs⟩, hd⟩ := hi
    simp [encode, decodeBody, rowOfWkByte_packWk hwf _ _ _ ha hs hd]
  | versionFields major minor =>
    simp [encode, decodeBody, extract_packVersion major minor]

end Sys2Proof

namespace Sys2Proof.Machine

/-! ## What a step does -/

/-- Settles O4: the branch of `step_cases` that the decoder's answer picks. -/
theorem stepRunsDecodedEvent : Obligations.StepRunsDecodedEvent := by
  unfold Obligations.StepRunsDecodedEvent
  refine ⟨fun s i rest _ hdec => ?event, fun s hnil => ?none, fun s e hne hdec => ?skip⟩
  case event =>
    rcases step_cases s with ⟨j, rest', hj, hstep⟩ | ⟨e, he, -⟩
    · obtain ⟨rfl, rfl⟩ : j = i ∧ rest' = rest := by simpa [hdec] using hj.symm
      exact hstep
    · exact absurd (hdec.symm.trans he) nofun
  case none =>
    rcases step_cases s with ⟨j, rest', hj, -⟩ | ⟨e, -, hstep⟩
    · rw [hnil] at hj
      exact absurd hj nofun
    · rw [hstep, hnil, pastNonEvent_nil, ← hnil]
      rfl
  case skip =>
    rcases step_cases s with ⟨j, rest', hj, -⟩ | ⟨e', -, hstep⟩
    · exact absurd (hj.symm.trans hdec) nofun
    · exact ⟨_, pastNonEvent_suffix e' s.inbox, pastNonEvent_length_lt e' hne, hstep⟩

/-- Settles O5: every instruction has an effect, and a step is an instruction's or passes over bytes. -/
theorem everyInstructionCompletes : Obligations.EveryInstructionCompletes := by
  unfold Obligations.EveryInstructionCompletes
  have hexec : ∀ (i : Instr) (s : State), ∃ t, exec i s = .next t ∧ t.cfg = s.cfg ∧ t.inbox = s.inbox := by
    intro i s
    obtain ⟨t, ht, heffect⟩ := exec_effect i s
    exact ⟨t, ht, keepsHost_of_effect heffect⟩
  refine ⟨hexec, fun s => ?_⟩
  rcases step_cases s with ⟨i, rest, hdec, hstep⟩ | ⟨e, -, hstep⟩
  · obtain ⟨t, ht, hcfg, hinbox⟩ := hexec i (s.take rest)
    obtain ⟨-, hsuffix, hlt⟩ := decode_ok hdec
    rw [take_inbox] at hinbox
    exact ⟨t, hstep.trans ht, hcfg, hinbox ▸ hsuffix, fun _ => hinbox ▸ hlt⟩
  · exact ⟨_, hstep, rfl, pastNonEvent_suffix e s.inbox, pastNonEvent_length_lt e⟩

end Sys2Proof.Machine
end

section
/-! The sequencer's evaluation (45_power_sequencer.md R263 to R282): one move for each line of the transition table, and
from the moves O55, O56, O57 and O58. -/

namespace Sys2Proof.Machine

/-! ## The entry actions in full -/

theorem goCharge_eq (s : State) :
    goCharge s = { s with
      run := .charge, mainRail := false, blOn := false
      bus := { s.bus with
        mode := .suspended, hgRun := false, ack := false, phase := .idle, inTransfer := false
        ptr := (dropHalfPointer s).bus.ptr }
      draws := (dropHalfPointer s).draws } := by
  rw [goCharge, busSuspend, detachBus_eq, dropHalfPointer_eq]

theorem goSleep_eq (s : State) :
    goSleep s = { s with
      run := .sleep, mainRail := false, auxRail := false, blOn := false, ind := { s.ind with en := false }
      alarmPending := false
      bus := { s.bus with
        mode := .disabled, hgRun := false, ack := false, phase := .idle, inTransfer := false
        ptr := (dropHalfPointer s).bus.ptr }
      draws := (dropHalfPointer s).draws } := by
  rw [goSleep, busShutdown, detachBus_eq, dropHalfPointer_eq]

@[simp] theorem run_goCharge (s : State) : (goCharge s).run = .charge := (congrArg State.run (goCharge_eq s) :)

@[simp] theorem run_goSleep (s : State) : (goSleep s).run = .sleep := (congrArg State.run (goSleep_eq s) :)

/-! ## The evaluation in Power -/

/-- The long-press flag read and cleared (R270). -/
def consumePress (s : State) : State := { s with longPress := false }

/-- What an evaluation in Power does before it leaves the state or stays: the critical-battery timer and the shutdown
trigger (R272, R277). -/
def powerTick (s : State) : State := consumeShutdown (critUpdate (consumePress s))

/-- Whether an evaluation in Power without a long press leaves the state (R272). -/
def powerExits (s : State) : Bool := critExit s || s.slot 16 == s.cfg.shdnSentinel

/-- The critical exit in the terms of the transition table (R277, R282). -/
theorem critExit_eq (s : State) :
    critExit s = (decide (s.meas[s.cfg.vbatCh.val].toNat < s.cfg.vbatCrit.toNat) &&
      decide (s.cfg.critTimeout + s.cfg.critGrace ≤ s.critCnt + 1)) := by
  have hcount : s.cfg.critTimeout + s.cfg.critGrace ≤ s.critNext ↔
      s.cfg.critTimeout + s.cfg.critGrace ≤ s.critCnt + 1 := by
    unfold State.critNext
    split <;> omega
  rw [critExit, decide_eq_decide.mpr hcount]
  rfl

/-- `STATUS` after the timer: below the threshold `crit` is set from `CRIT_TIMEOUT` on and kept before, at or above the
threshold it is cleared (R277). -/
def powerStatus (s : State) : Byte :=
  if s.vbat < s.cfg.vbatCrit then
    (if s.cfg.critTimeout ≤ s.critNext then putBit (s.slot 2) s.cfg.stCritBit true else s.slot 2)
  else putBit (s.slot 2) s.cfg.stCritBit false

/-- The count after the timer (R277). -/
def powerCount (s : State) : Nat := if s.vbat < s.cfg.vbatCrit then s.critNext else 0

theorem critUpdate_frame (s : State) :
    critUpdate s = { s with slots := (critUpdate s).slots, critCnt := powerCount s } := by
  unfold critUpdate powerCount
  dsimp only
  split
  · split <;> rfl
  · rfl

theorem slot_critUpdate (s : State) (k : Fin 32) :
    (critUpdate s).slot k = if k = 2 then powerStatus s else s.slot k := by
  unfold critUpdate powerStatus
  dsimp only
  split
  · split
    · exact slot_setCrit _ true k
    · split
      next hk => rw [hk]; rfl
      next => rfl
  · exact slot_setCrit _ false k

theorem slot_consumeShutdown (s : State) (k : Fin 32) :
    (consumeShutdown s).slot k = if k = 16 ∧ s.slot 16 = s.cfg.shdnSentinel then 0x00#8 else s.slot k := by
  unfold consumeShutdown
  split
  next h => simp only [h, and_true, slot_setSlot]
  next h => simp only [h, and_false, if_false]

theorem consumeShutdown_frame (s : State) : consumeShutdown s = { s with slots := (consumeShutdown s).slots } := by
  unfold consumeShutdown
  split <;> rfl

theorem powerTick_frame (s : State) :
    powerTick s = { s with longPress := false, slots := (powerTick s).slots, critCnt := powerCount s } := by
  have h := critUpdate_frame (consumePress s)
  rw [powerTick, consumeShutdown_frame]
  generalize critUpdate (consumePress s) = u at h ⊢
  rw [h]
  rfl

theorem slot_powerTick (s : State) (k : Fin 32) :
    (powerTick s).slot k =
      if k = 16 ∧ s.slot 16 = s.cfg.shdnSentinel then 0x00#8 else if k = 2 then powerStatus s else s.slot k := by
  have hcfg : (critUpdate (consumePress s)).cfg = s.cfg := (congrArg State.cfg (critUpdate_frame (consumePress s)) :)
  rw [powerTick, slot_consumeShutdown, slot_critUpdate, slot_critUpdate, hcfg]
  rfl

/-! ## Slots kept by the entry actions -/

theorem slot_eq_of_slots_eq {s t : State} (h : t.slots = s.slots) (k : Fin 32) : t.slot k = s.slot k := by
  simp only [State.slot, h]

@[simp] theorem slot_goCharge (s : State) (k : Fin 32) : (goCharge s).slot k = s.slot k :=
  slot_eq_of_slots_eq (slots_goCharge s) k

@[simp] theorem slot_goSleep (s : State) (k : Fin 32) : (goSleep s).slot k = s.slot k :=
  slot_eq_of_slots_eq (slots_goSleep s) k

/-- An entry to Power writes the reason into `STATUS` and no other slot (R266, R275). -/
theorem slot_goPower (r : BitVec 3) (s : State) (k : Fin 32) :
    (goPower r s).slot k = if k = 2 then putField3 (s.slot 2) s.cfg.stReasonLsb r else s.slot k :=
  slot_setReason _ r k

theorem slot_goPower_of_ne (r : BitVec 3) (s : State) {k : Fin 32} (hk : k ≠ 2) : (goPower r s).slot k = s.slot k := by
  rw [slot_goPower, if_neg hk]

@[simp] theorem slot_consumePress (s : State) (k : Fin 32) : (consumePress s).slot k = s.slot k := rfl

/-! ## The moves -/

/-- The reason of an entry to Power from Wake or Charge (R271, R273, R275). -/
def entryReason (s : State) : BitVec 3 :=
  if s.alarmPending then s.cfg.reasonAlarm
  else if s.run = .wake ∨ s.chargeDoneWake = true then s.cfg.reasonCharge
  else s.cfg.reasonButton

/-- What an evaluation does before its transition: outside Power it clears the long-press flag, in Power without a long
press it runs the timer and the shutdown trigger too. -/
inductive Prelude (s : State) : State → Prop where
  | idle (hrun : s.run ≠ .power) : Prelude s (consumePress s)
  | tick (hrun : s.run = .power) (hpress : s.longPress = false) : Prelude s (powerTick s)

/-- `SeqMove s t`: an evaluation of the sequencer in `s` answers `t`, by the line of the transition table that applies
and the entry action of the state entered. -/
inductive SeqMove (s : State) : State → Prop where
  | stay {u : State} (hu : Prelude s u) (hnext : nextRun s = s.run) : SeqMove s u
  | toCharge {u : State} (hu : Prelude s u) (hleave : s.run ≠ .charge) (hnext : nextRun s = .charge) :
      SeqMove s (goCharge u)
  | toWait (hrun : s.run = .wake) (hnext : nextRun s = .wait) : SeqMove s (goWait (consumePress s))
  | toPower (hrun : s.run = .wake ∨ s.run = .charge) (hnext : nextRun s = .power) :
      SeqMove s (goPower (entryReason s) { consumePress s with alarmPending := false })
  | waitToPower (hrun : s.run = .wait) (hnext : nextRun s = .power) :
      SeqMove s (goPower s.cfg.reasonButton (consumePress s))
  | toPowerOff (hrun : s.run = .power) (hpress : s.longPress = true) (hnext : nextRun s = .powerOff) :
      SeqMove s (goPowerOff (consumePress s))
  | toSleep {u : State} (hu : Prelude s u) (hleave : s.run ≠ .sleep) (hnext : nextRun s = .sleep) :
      SeqMove s (goSleep u)

section
variable {s : State}

theorem runWake_move (hrun : s.run = .wake) : SeqMove s (runWake (consumePress s)) := by
  have hne : s.run ≠ .power := by simp [hrun]
  have hnext : nextRun s =
      if (s.alarmPending || s.chargeWake) && s.batteryOk then .power
      else if s.extPwr then .charge
      else if s.heldShort && s.batteryOk then .wait
      else if !s.batteryOk || !s.dio.btn.deb then .sleep
      else .wake := by rw [nextRun, hrun]
  have hreason : (if s.alarmPending then s.cfg.reasonAlarm else s.cfg.reasonCharge) = entryReason s := by
    simp [entryReason, hrun]
  show SeqMove s (if (s.alarmPending || s.chargeWake) && s.batteryOk then
      goPower (if s.alarmPending then s.cfg.reasonAlarm else s.cfg.reasonCharge)
        { consumePress s with alarmPending := false }
    else if s.extPwr then goCharge (consumePress s)
    else if s.heldShort && s.batteryOk then goWait (consumePress s)
    else if !s.batteryOk || !s.dio.btn.deb then goSleep (consumePress s)
    else consumePress s)
  split
  next h => rw [hreason]; exact .toPower (.inl hrun) (by rw [hnext, if_pos h])
  next h1 =>
    split
    next h => exact .toCharge (.idle hne) (by simp [hrun]) (by rw [hnext, if_neg h1, if_pos h])
    next h2 =>
      split
      next h => exact .toWait hrun (by rw [hnext, if_neg h1, if_neg h2, if_pos h])
      next h3 =>
        split
        next h => exact .toSleep (.idle hne) (by simp [hrun]) (by rw [hnext, if_neg h1, if_neg h2, if_neg h3, if_pos h])
        next h4 => exact .stay (.idle hne) (by rw [hnext, if_neg h1, if_neg h2, if_neg h3, if_neg h4, hrun])

theorem runCharge_move (hrun : s.run = .charge) : SeqMove s (runCharge (consumePress s)) := by
  have hne : s.run ≠ .power := by simp [hrun]
  have hnext : nextRun s =
      if s.batteryOk && (s.alarmPending || s.chargeDoneWake || s.heldShort) then .power
      else if s.chgState == .off || (s.chgState != .charging && !s.batteryOk) then .sleep
      else .charge := by rw [nextRun, hrun]
  have hreason : chargeReason (consumePress s) = entryReason s := by
    simp only [entryReason, hrun, reduceCtorEq, false_or]
    rfl
  show SeqMove s (if s.batteryOk && (s.alarmPending || s.chargeDoneWake || s.heldShort) then
      goPower (chargeReason (consumePress s)) { consumePress s with alarmPending := false }
    else if s.chgState == .off || (!(s.chgState == .charging) && !s.batteryOk) then goSleep (consumePress s)
    else consumePress s)
  split
  next h => rw [hreason]; exact .toPower (.inr hrun) (by rw [hnext, if_pos h])
  next h1 =>
    split
    next h => exact .toSleep (.idle hne) (by simp [hrun]) (by rw [hnext, if_neg h1, bne, if_pos h])
    next h2 => exact .stay (.idle hne) (by rw [hnext, if_neg h1, bne, if_neg h2, hrun])

theorem runWait_move (hrun : s.run = .wait) : SeqMove s (runWait (consumePress s)) := by
  have hne : s.run ≠ .power := by simp [hrun]
  have hnext : nextRun s = if s.dio.btn.deb then .wait else .power := by rw [nextRun, hrun]
  show SeqMove s (if s.dio.btn.deb then consumePress s else goPower s.cfg.reasonButton (consumePress s))
  split
  next h => exact .stay (.idle hne) (by rw [hnext, if_pos h, hrun])
  next h => exact .waitToPower hrun (by rw [hnext, if_neg h])

theorem runPower_move (hrun : s.run = .power) : SeqMove s (runPower s.longPress (consumePress s)) := by
  have hnext : nextRun s =
      if s.longPress then .powerOff
      else if powerExits s then (if s.extPwr then .charge else .sleep)
      else .power := by rw [nextRun, hrun, powerExits, critExit_eq]
  have hext : (powerTick s).extPwr = s.extPwr := by
    have hframe := seqFrame_trans (critUpdate_seqFrame (consumePress s)) (consumeShutdown_seqFrame _)
    rw [powerTick, hframe]
    rfl
  show SeqMove s (if s.longPress then goPowerOff (consumePress s)
    else if powerExits s then goChargeOrSleep (powerTick s) else powerTick s)
  cases hpress : s.longPress with
  | true => exact .toPowerOff hrun hpress (by rw [hnext, hpress, if_pos rfl])
  | false =>
    rw [hpress, if_neg Bool.false_ne_true] at hnext
    rw [if_neg Bool.false_ne_true]
    cases hexit : powerExits s with
    | false => exact .stay (.tick hrun hpress) (by rw [hnext, hexit, hrun]; rfl)
    | true =>
      rw [hexit, if_pos rfl] at hnext
      rw [if_pos rfl, goChargeOrSleep, hext]
      cases hpwr : s.extPwr with
      | true => exact .toCharge (.tick hrun hpress) (by simp [hrun]) (by rw [hnext, hpwr]; rfl)
      | false => exact .toSleep (.tick hrun hpress) (by simp [hrun]) (by rw [hnext, hpwr]; rfl)

theorem runPowerOff_move (hrun : s.run = .powerOff) : SeqMove s (runPowerOff (consumePress s)) := by
  have hne : s.run ≠ .power := by simp [hrun]
  have hnext : nextRun s = if s.dio.btn.deb then .powerOff else if s.extPwr then .charge else .sleep := by
    rw [nextRun, hrun]
  show SeqMove s (if s.dio.btn.deb then consumePress s
    else if s.extPwr then goCharge (consumePress s) else goSleep (consumePress s))
  split
  next h => exact .stay (.idle hne) (by rw [hnext, if_pos h, hrun])
  next h1 =>
    split
    next h => exact .toCharge (.idle hne) (by simp [hrun]) (by rw [hnext, if_neg h1, if_pos h])
    next h => exact .toSleep (.idle hne) (by simp [hrun]) (by rw [hnext, if_neg h1, if_neg h])

end

/-- The one inversion of the sequencer's evaluation (R269, R282). -/
theorem evalRun_move (s : State) : SeqMove s (evalRun s) := by
  unfold evalRun
  dsimp only
  split
  next hrun => exact runWake_move hrun
  next hrun => exact runCharge_move hrun
  next hrun => exact runWait_move hrun
  next hrun => exact runPower_move hrun
  next hrun => exact runPowerOff_move hrun
  next hrun =>
    have hne : s.run ≠ .power := by simp [show s.run = .sleep from hrun]
    exact .stay (.idle hne) (by rw [nextRun, hrun])

/-! ## The transition table -/

section
variable {s t u : State}

/-- Only slots, the long-press flag and the critical-battery count can differ before the transition. -/
theorem Prelude.frame (h : Prelude s u) :
    u = { s with longPress := false, slots := u.slots, critCnt := u.critCnt } := by
  cases h with
  | idle => rfl
  | tick =>
    have h := powerTick_frame s
    generalize powerTick s = u at h ⊢
    rw [h]

theorem Prelude.run (h : Prelude s u) : u.run = s.run := (congrArg State.run h.frame :)

/-- The shutdown trigger is consumed in Power without a long press (R272). -/
theorem Prelude.slot_sixteen (h : Prelude s u) :
    u.slot 16 =
      if s.run = .power ∧ s.longPress = false ∧ s.slot 16 = s.cfg.shdnSentinel then 0x00#8 else s.slot 16 := by
  cases h with
  | idle hrun => simp [hrun]
  | tick hrun hpress => simp [slot_powerTick, hrun, hpress]

theorem SeqMove.run_eq (h : SeqMove s t) : t.run = nextRun s := by
  cases h with
  | stay hu hnext => rw [hu.run, hnext]
  | toCharge _ _ hnext => rw [run_goCharge, hnext]
  | toWait _ hnext | toPower _ hnext | waitToPower _ hnext | toPowerOff _ _ hnext => exact hnext.symm
  | toSleep _ _ hnext => rw [run_goSleep, hnext]

/-- The shutdown trigger is consumed by an evaluation in Power without a long press, and by no other (R272). -/
theorem SeqMove.slot_sixteen (h : SeqMove s t) :
    t.slot 16 =
      if s.run = .power ∧ s.longPress = false ∧ s.slot 16 = s.cfg.shdnSentinel then 0x00#8 else s.slot 16 := by
  cases h with
  | stay hu => exact hu.slot_sixteen
  | toCharge hu => rw [slot_goCharge, hu.slot_sixteen]
  | toSleep hu => rw [slot_goSleep, hu.slot_sixteen]
  | toWait hrun =>
    rw [if_neg (by simp [hrun])]
    rfl
  | toPower hrun =>
    rw [slot_goPower_of_ne _ _ (by decide), if_neg (by rcases hrun with hrun | hrun <;> simp [hrun])]
    rfl
  | waitToPower hrun =>
    rw [slot_goPower_of_ne _ _ (by decide), if_neg (by simp [hrun])]
    rfl
  | toPowerOff _ hpress =>
    rw [if_neg (by simp [hpress])]
    rfl

/-- Settles O55: the run state and slot 16 move by move, the rest by the slots and the fields an
evaluation can write. -/
theorem sequencerFollowsTable : Obligations.SequencerFollowsTable := by
  unfold Obligations.SequencerFollowsTable
  intro s
  have hslots (k : Fin 32) (h2 : k ≠ 2) (h16 : k ≠ 16) : (evalRun s).slot k = s.slot k :=
    evalRun_writesWithin s k (by simp [h2, h16])
  exact ⟨evalRun s, rfl, (evalRun_move s).run_eq, (congrArg State.longPress (evalRun_frame s) :), hslots,
    (evalRun_move s).slot_sixteen, evalRun_frame s⟩

/-! ## The entry actions -/

theorem SeqMove.of_same (h : SeqMove s t) (hsame : t.run = s.run) : Prelude s t := by
  rw [h.run_eq] at hsame
  cases h with
  | stay hu => exact hu
  | toCharge _ hleave hnext | toSleep _ hleave hnext => exact absurd (hsame.symm.trans hnext) hleave
  | toWait hrun hnext | waitToPower hrun hnext | toPowerOff hrun _ hnext =>
    exact absurd (hrun.symm.trans (hsame.symm.trans hnext)) nofun
  | toPower hrun hnext =>
    rcases hrun with hrun | hrun <;> exact absurd (hrun.symm.trans (hsame.symm.trans hnext)) nofun

/-- A transition runs the entry action of the state entered, after what the evaluation does before it. -/
inductive Entered (s : State) : State → Prop where
  | charge {u : State} (hu : Prelude s u) : Entered s (goCharge u)
  | wait : Entered s (goWait (consumePress s))
  | power (r : BitVec 3) (alarm : Bool) : Entered s (goPower r { consumePress s with alarmPending := alarm })
  | powerOff : Entered s (goPowerOff (consumePress s))
  | sleep {u : State} (hu : Prelude s u) : Entered s (goSleep u)

theorem SeqMove.of_changed (h : SeqMove s t) (hne : t.run ≠ s.run) : Entered s t := by
  rw [h.run_eq] at hne
  cases h with
  | stay _ hnext => exact absurd hnext hne
  | toCharge hu => exact .charge hu
  | toWait => exact .wait
  | toPower => exact .power _ false
  | waitToPower => exact .power _ s.alarmPending
  | toPowerOff => exact .powerOff
  | toSleep hu => exact .sleep hu

/-- The count and `STATUS` change in the timer and on entry to Power only (R272, R277). -/
theorem SeqMove.keeps_crit (h : SeqMove s t) (hrun : s.run = .power → s.longPress = true)
    (hto : s.run = .power ∨ t.run ≠ .power) :
    t.critCnt = s.critCnt ∧ t.slot 2 = s.slot 2 := by
  have hu {u : State} (h : Prelude s u) : u.critCnt = s.critCnt ∧ u.slot 2 = s.slot 2 := by
    cases h with
    | idle => exact ⟨rfl, rfl⟩
    | tick hpower hpress => simp [hrun hpower] at hpress
  have hrun' := h.run_eq
  cases h with
  | stay hs => exact hu hs
  | toCharge hs => 
    exact ⟨(congrArg State.critCnt (goCharge_eq _) :).trans (hu hs).1, (slot_goCharge _ 2).trans (hu hs).2⟩
  | toSleep hs => exact ⟨(congrArg State.critCnt (goSleep_eq _) :).trans (hu hs).1, (slot_goSleep _ 2).trans (hu hs).2⟩
  | toWait | toPowerOff => exact ⟨rfl, rfl⟩
  | toPower hfrom hnext =>
    rcases hto with hto | hto
    · rcases hfrom with hfrom | hfrom <;> exact absurd (hfrom.symm.trans hto) nofun
    · exact absurd rfl hto
  | waitToPower hfrom hnext =>
    rcases hto with hto | hto
    · exact absurd (hfrom.symm.trans hto) nofun
    · exact absurd rfl hto

theorem Prelude.bus (h : Prelude s u) : u.bus = s.bus := (congrArg State.bus h.frame :)

theorem Prelude.pointer_kept (h : Prelude s u) (hp : s.bus.phase ≠ .addrLo) :
    (dropHalfPointer u).bus.ptr = s.bus.ptr ∧ (dropHalfPointer u).draws = s.draws := by
  obtain ⟨hptr, hdraws⟩ := dropHalfPointer_keeps (s := u) (by rwa [h.bus])
  exact ⟨by rw [hptr, h.bus], by rw [hdraws, h.frame]⟩

/-- The entry action of Charge (R264). -/
theorem entered_charge (hu : Prelude s u) :
    (goCharge u).mainRail = false ∧ (goCharge u).auxRail = s.auxRail ∧ (goCharge u).blOn = false ∧
      (goCharge u).ind = s.ind ∧ (goCharge u).alarmPending = s.alarmPending ∧
      (s.bus.phase ≠ .addrLo → (goCharge u).draws = s.draws) ∧
      ∃ q, (s.bus.phase ≠ .addrLo → q = s.bus.ptr) ∧
        (goCharge u).bus = { s.bus with
          mode := .suspended, hgRun := false, ack := false, phase := .idle, inTransfer := false, ptr := q } := by
  have hframe := hu.frame
  rw [goCharge_eq]
  refine ⟨rfl, (congrArg State.auxRail hframe :), rfl, (congrArg State.ind hframe :),
    (congrArg State.alarmPending hframe :), fun hp => (hu.pointer_kept hp).2, (dropHalfPointer u).bus.ptr,
    fun hp => (hu.pointer_kept hp).1, ?_⟩
  rw [hu.bus]

/-- The entry action of Sleep (R268). -/
theorem entered_sleep (hu : Prelude s u) :
    (goSleep u).mainRail = false ∧ (goSleep u).auxRail = false ∧ (goSleep u).blOn = false ∧
      (goSleep u).ind = { s.ind with en := false } ∧ (goSleep u).alarmPending = false ∧
      (s.bus.phase ≠ .addrLo → (goSleep u).draws = s.draws) ∧
      ∃ q, (s.bus.phase ≠ .addrLo → q = s.bus.ptr) ∧
        (goSleep u).bus = { s.bus with
          mode := .disabled, hgRun := false, ack := false, phase := .idle, inTransfer := false, ptr := q } := by
  have hind : u.ind = s.ind := (congrArg State.ind hu.frame :)
  rw [goSleep_eq]
  refine ⟨rfl, rfl, rfl, ?_, rfl, fun hp => (hu.pointer_kept hp).2, (dropHalfPointer u).bus.ptr,
    fun hp => (hu.pointer_kept hp).1, ?_⟩
  · rw [hind]
  · rw [hu.bus]

end

/-- Settles O56: no transition leaves everything but the timer's fields, a transition is the entry action of the state
entered. -/
theorem transitionsRunEntryActions : Obligations.TransitionsRunEntryActions := by
  unfold Obligations.TransitionsRunEntryActions
  intro s t ht
  obtain rfl : evalRun s = t := Host.Outcome.next.inj ht
  have hmove := evalRun_move s
  generalize evalRun s = t at hmove
  have houtside : s.run ≠ .power → t.run ≠ .power → t.critCnt = s.critCnt ∧ t.slot 2 = s.slot 2 :=
    fun hrun hto => hmove.keeps_crit (fun h => absurd h hrun) (.inr hto)
  have hpressed : s.run = .power → s.longPress = true → t.critCnt = s.critCnt ∧ t.slot 2 = s.slot 2 :=
    fun hrun hpress => hmove.keeps_crit (fun _ => hpress) (.inl hrun)
  by_cases hsame : t.run = s.run
  · have hframe := (hmove.of_same hsame).frame
    refine ⟨fun _ => ?_, (absurd hsame ·), (absurd hsame ·), (absurd hsame ·), (absurd hsame ·), (absurd hsame ·),
      houtside, hpressed⟩
    rw [hframe]
    exact ⟨rfl, rfl, rfl, rfl, rfl, rfl, rfl⟩
  · have hentered := hmove.of_changed hsame
    cases hentered with
    | charge hu =>
      exact ⟨(absurd · hsame), fun _ _ => entered_charge hu, fun _ h => absurd h (by simp),
        fun _ h => absurd h (by simp),
        fun _ h => absurd h (by simp), fun _ h => absurd h (by simp), houtside, hpressed⟩
    | wait =>
      exact ⟨(absurd · hsame), fun _ h => absurd h nofun, fun _ _ => ⟨rfl, rfl, rfl, rfl, rfl, rfl, rfl⟩,
        fun _ h => absurd h nofun, fun _ h => absurd h nofun, fun _ h => absurd h nofun, houtside, hpressed⟩
    | power r alarm =>
      exact ⟨(absurd · hsame), fun _ h => absurd h nofun, fun _ h => absurd h nofun,
        fun _ _ => ⟨rfl, rfl, rfl, rfl, rfl, rfl, rfl⟩, fun _ h => absurd h nofun, fun _ h => absurd h nofun, houtside,
        hpressed⟩
    | powerOff =>
      exact ⟨(absurd · hsame), fun _ h => absurd h nofun, fun _ h => absurd h nofun, fun _ h => absurd h nofun,
        fun _ _ => ⟨rfl, rfl, rfl, rfl, rfl, rfl, rfl⟩, fun _ h => absurd h nofun, houtside, hpressed⟩
    | sleep hu =>
      exact ⟨(absurd · hsame), fun _ h => absurd h (by simp), fun _ h => absurd h (by simp),
        fun _ h => absurd h (by simp), fun _ h => absurd h (by simp), fun _ _ => entered_sleep hu, houtside, hpressed⟩

/-! ## The reason in `STATUS` -/

/-- The bits of `STATUS` that an entry to Power writes (R275): the reason field alone. -/
theorem status_goPower {s : State} (hwf : s.cfg.wf = true) (r : BitVec 3) :
    (goPower r s).statusReason = r ∧ (goPower r s).statusCrit = s.statusCrit ∧
      (goPower r s).statusShort = s.statusShort := by
  obtain ⟨-, -, hlsb, -, hcrit, hshort⟩ := stLayout_of_wf hwf
  have hstatus : (goPower r s).slot 2 = putField3 (s.slot 2) s.cfg.stReasonLsb r := slot_goPower r s 2
  have hcfg : (goPower r s).cfg = s.cfg := rfl
  have houtside {n : Nat} (hn : ∀ i < 3, s.cfg.stReasonLsb + i ≠ n) :
      ((goPower r s).slot 2).getLsbD n = (s.slot 2).getLsbD n := by
    rw [hstatus, getLsbD_putField3, if_neg]
    rintro ⟨hle, hlt, -⟩
    exact hn (n - s.cfg.stReasonLsb) (by omega) (by omega)
  refine ⟨?_, houtside hcrit, houtside hshort⟩
  rw [State.statusReason, hstatus, hcfg]
  refine BitVec.eq_of_getLsbD_eq fun i hi => ?_
  rw [getLsbD_getField3, getLsbD_putField3, if_pos (by omega), Nat.add_sub_cancel_left, decide_eq_true hi,
    Bool.true_and]

/-- Settles O57: an entry to Power from another state is one of two moves, and each writes its reason. -/
theorem entryToPowerReportsReason : Obligations.EntryToPowerReportsReason := by
  unfold Obligations.EntryToPowerReportsReason
  intro s t hwf ht hrun hto
  obtain rfl : evalRun s = t := Host.Outcome.next.inj ht
  have hmove := evalRun_move s
  generalize evalRun s = t at hmove hto
  rw [hmove.run_eq] at hto
  cases hmove with
  | stay _ hnext => exact absurd (hnext.symm.trans hto) hrun
  | toCharge _ _ hnext | toWait _ hnext | toPowerOff _ _ hnext | toSleep _ _ hnext =>
    exact absurd (hnext.symm.trans hto) nofun
  | toPower hfrom =>
    obtain ⟨hreason, hcrit, hshort⟩ :=
      status_goPower (s := { consumePress s with alarmPending := false }) hwf (entryReason s)
    have hne : s.run ≠ .wait := by rcases hfrom with h | h <;> simp [h]
    rw [if_neg hne, if_neg hne]
    exact ⟨hreason, hcrit, hshort, rfl⟩
  | waitToPower hfrom =>
    obtain ⟨hreason, hcrit, hshort⟩ := status_goPower (s := consumePress s) hwf s.cfg.reasonButton
    rw [if_pos hfrom, if_pos hfrom]
    exact ⟨hreason, hcrit, hshort, rfl⟩

/-! ## The critical battery -/

/-- In Power without a long press an evaluation is the timer, the trigger and at most an entry action, which leaves the
slots and the count. -/
theorem SeqMove.of_power {s t : State} (h : SeqMove s t) (hrun : s.run = .power) (hpress : s.longPress = false) :
    t.critCnt = powerCount s ∧ t.cfg = s.cfg ∧ ∀ k, t.slot k = (powerTick s).slot k := by
  have hu {u : State} (h : Prelude s u) : u = powerTick s := by
    cases h with
    | idle hne => exact absurd hrun hne
    | tick => rfl
  have hcount : (powerTick s).critCnt = powerCount s := (congrArg State.critCnt (powerTick_frame s) :)
  have hcfg : (powerTick s).cfg = s.cfg := (congrArg State.cfg (powerTick_frame s) :)
  cases h with
  | stay hs =>
    obtain rfl := hu hs
    exact ⟨hcount, hcfg, fun _ => rfl⟩
  | toCharge hs =>
    obtain rfl := hu hs
    exact ⟨(congrArg State.critCnt (goCharge_eq _) :).trans hcount, (congrArg State.cfg (goCharge_eq _) :).trans hcfg,
      slot_goCharge _⟩
  | toSleep hs =>
    obtain rfl := hu hs
    exact ⟨(congrArg State.critCnt (goSleep_eq _) :).trans hcount, (congrArg State.cfg (goSleep_eq _) :).trans hcfg,
      slot_goSleep _⟩
  | toWait hfrom | waitToPower hfrom => exact absurd (hfrom.symm.trans hrun) nofun
  | toPower hfrom => rcases hfrom with h | h <;> exact absurd (h.symm.trans hrun) nofun
  | toPowerOff _ h => exact absurd (h.symm.trans hpress) nofun

theorem getLsbD_powerStatus_of_ne (s : State) {n : Nat} (hn : n ≠ s.cfg.stCritBit) :
    (powerStatus s).getLsbD n = (s.slot 2).getLsbD n := by
  unfold powerStatus
  split
  · split
    · rw [getLsbD_putBit, if_neg (fun h => hn h.1)]
    · rfl
  · rw [getLsbD_putBit, if_neg (fun h => hn h.1)]

theorem getLsbD_powerStatus_crit {s : State} (hwf : s.cfg.wf = true) :
    (powerStatus s).getLsbD s.cfg.stCritBit =
      if s.vbat < s.cfg.vbatCrit then s.statusCrit || decide (s.cfg.critTimeout ≤ s.critNext) else false := by
  obtain ⟨hcrit, -⟩ := stLayout_of_wf hwf
  unfold powerStatus
  split
  · split
    next h => rw [getLsbD_putBit, if_pos ⟨rfl, hcrit⟩, decide_eq_true h, Bool.or_true]
    next h => rw [decide_eq_false h, Bool.or_false]; rfl
  · rw [getLsbD_putBit, if_pos ⟨rfl, hcrit⟩]

/-- The three fields of `STATUS` after an evaluation in Power. -/
theorem SeqMove.status_of_power {s t : State} (h : SeqMove s t) (hwf : s.cfg.wf = true) (hrun : s.run = .power)
    (hpress : s.longPress = false) :
    t.statusCrit =
        (if s.vbat < s.cfg.vbatCrit then s.statusCrit || decide (s.cfg.critTimeout ≤ s.critNext) else false) ∧
      t.statusReason = s.statusReason ∧ t.statusShort = s.statusShort := by
  obtain ⟨-, hcfg, hslot⟩ := h.of_power hrun hpress
  obtain ⟨-, -, -, hne, hreason, -⟩ := stLayout_of_wf hwf
  have hstatus : t.slot 2 = powerStatus s := by rw [hslot, slot_powerTick, if_neg (by simp), if_pos rfl]
  refine ⟨?_, ?_, ?_⟩
  · rw [State.statusCrit, hstatus, hcfg, getLsbD_powerStatus_crit hwf]
  · rw [State.statusReason, hstatus, hcfg, State.statusReason]
    refine BitVec.eq_of_getLsbD_eq fun i hi => ?_
    rw [getLsbD_getField3, getLsbD_getField3, getLsbD_powerStatus_of_ne s (hreason i hi)]
  · rw [State.statusShort, hstatus, hcfg, getLsbD_powerStatus_of_ne s hne.symm, State.statusShort]

/-- The line of the transition table for Power without a long press, in the terms of the count's limit. -/
theorem nextRun_power {s : State} (hrun : s.run = .power) (hpress : s.longPress = false) :
    nextRun s =
      if (s.meas[s.cfg.vbatCh.val].toNat < s.cfg.vbatCrit.toNat ∧
          s.cfg.critTimeout + s.cfg.critGrace ≤ s.critCnt + 1) ∨ s.slot 16 = s.cfg.shdnSentinel then
        if s.chgState = .off then .sleep else .charge
      else .power := by
  have hext : (if s.extPwr then RunState.charge else .sleep) = if s.chgState = .off then .sleep else .charge := by
    cases hchg : s.chgState <;> simp [State.extPwr, hchg]
  rw [nextRun, hrun]
  simp only [hpress, hext, Bool.false_eq_true, if_false, Bool.or_eq_true, Bool.and_eq_true, decide_eq_true_eq,
    beq_iff_eq]

/-- Settles O58: the count and `STATUS` by the timer, slot 16 by the trigger, the run state by the table's line. -/
theorem criticalBatteryForcesExit : Obligations.CriticalBatteryForcesExit := by
  unfold Obligations.CriticalBatteryForcesExit
  intro s hwf hrun hpress hle
  have hmove := evalRun_move s
  obtain ⟨hcount, -, -⟩ := hmove.of_power hrun hpress
  obtain ⟨hcrit, hreason, hshort⟩ := hmove.status_of_power hwf hrun hpress
  have hsixteen := hmove.slot_sixteen
  have hto := hmove.run_eq.trans (nextRun_power hrun hpress)
  have hbelow : s.vbat < s.cfg.vbatCrit ↔ s.meas[s.cfg.vbatCh.val].toNat < s.cfg.vbatCrit.toNat := Iff.rfl
  have hnext : s.critNext = min (s.critCnt + 1) (s.cfg.critTimeout + s.cfg.critGrace) := by
    unfold State.critNext
    split <;> omega
  refine ⟨evalRun s, s.critNext, rfl, hnext, fun hlow => ⟨?_, ?_, fun hlimit => ?_, fun hlimit hbyte => ?_⟩,
    fun hhigh => ⟨?_, ?_, fun hbyte => ?_⟩, fun hbyte => ⟨?_, ?_⟩, hreason, hshort⟩
  · rw [hcount, powerCount, if_pos (hbelow.mpr hlow)]
  · rw [hcrit, if_pos (hbelow.mpr hlow)]
  · rw [hto, if_pos (.inl ⟨hlow, by omega⟩)]
  · rw [hto, if_neg]
    rintro (⟨-, h⟩ | h)
    · omega
    · exact hbyte h
  · rw [hcount, powerCount, if_neg (mt hbelow.mp (Nat.not_lt.mpr hhigh))]
  · rw [hcrit, if_neg (mt hbelow.mp (Nat.not_lt.mpr hhigh))]
  · rw [hto, if_neg]
    rintro (⟨h, -⟩ | h)
    · omega
    · exact hbyte h
  · rw [hsixteen, if_pos ⟨hrun, hpress, hbyte⟩]
  · rw [hto, if_pos (.inr hbyte)]

end Sys2Proof.Machine
end

section
/-! What a wire event can do to the register space and to the bus state, each said once, and from that O19
and O22. -/

namespace Sys2Proof.Machine

/-! ## The register space -/

/-- A predicate that `RegRead`, `RegWrite` and the bus's own bookkeeping keep, so that every bus event keeps it. -/
structure RegInvariant (P : State → Prop) : Prop where
  bus : ∀ (s : State) (b : BusState) (d : Nat) (o : List Resp), P s → P { s with bus := b, draws := d, out := o }
  read : ∀ (p : Half) (s : State), P s → P (regRead p s).2
  write : ∀ (p : Half) (b : Byte) (s : State), P s → P (regWrite p b s)

namespace RegInvariant

variable {P : State → Prop} (h : RegInvariant P) {s : State}
include h

theorem fetch (hs : P s) (b : BusState) (d : Nat) (o : List Resp) :
    P { (fetchByte s).2 with bus := b, draws := d, out := o } :=
  h.bus (regRead s.bus.ptr s).2 b d o (h.read s.bus.ptr s hs)

theorem store (hs : P s) (x : Byte) (b : BusState) (d : Nat) (o : List Resp) :
    P { storeByte x s with bus := b, draws := d, out := o } :=
  h.bus (regWrite s.bus.ptr x s) b d o (h.write s.bus.ptr x s hs)

theorem close (hs : P s) (o : List Resp) : P ((closeTransaction s).respond o) := by
  rw [closeTransaction_frame]
  exact h.bus s _ _ o hs

theorem service (hs : P s) (e : WireEvent) : P (service e s) := by
  by_cases hm : s.bus.mode = .active
  · have hskip (hp : s.bus.phase = .idle) (he : e.isDataEvent = true) : P (Machine.service e s) := by
      rw [service_idle hm hp he]
      exact h.bus s _ _ _ hs
    have hreset (hw : s.ctx.expectsWrite = true) (he : e = .rack ∨ e = .rnack) : P (Machine.service e s) := by
      rw [service_ackEvent_expectsWrite hm hw he]
      exact h.close hs _
    cases e with
    | start a rw =>
      by_cases ha : a = s.cfg.slaveAddr
      · subst ha
        cases rw with
        | w =>
          rw [service_startW hm, busStartW, dropHalfPointer_frame]
          exact h.bus s _ _ _ hs
        | r =>
          rw [service_startR hm, busStartR_eq]
          exact h.bus _ _ _ _ (h.read _ s hs)
      · rw [service_startOther hm ha]
        exact h.close hs _
    | wdata b =>
      rcases idle_or_read_or_expectsWrite s with hp | ⟨hp, hd⟩ | hw
      · exact hskip hp rfl
      · rw [service_wdata_read hm hp hd]
        exact h.close hs _
      · rcases expectsWrite_iff.mp hw with hp | hp | ⟨hp, hd⟩
        · rw [service_wdata_addrHi hm hp]
          exact h.bus s _ _ _ hs
        · rw [service_wdata_addrLo hm hp]
          exact h.bus s _ _ _ hs
        · rw [service_wdata_write hm hp hd]
          exact h.store hs b _ _ _
    | rack =>
      rcases idle_or_read_or_expectsWrite s with hp | ⟨hp, hd⟩ | hw
      · exact hskip hp rfl
      · rw [service_rack_read hm hp hd]
        exact h.fetch hs _ _ _
      · exact hreset hw (.inl rfl)
    | rnack =>
      rcases idle_or_read_or_expectsWrite s with hp | ⟨hp, hd⟩ | hw
      · exact hskip hp rfl
      · rw [service_rnack_read hm hp hd]
        exact h.bus s _ _ _ hs
      · exact hreset hw (.inr rfl)
    | stop =>
      rw [service_stop hm]
      exact h.close hs _
    | busErr =>
      rw [service_busErr hm]
      exact h.close hs _
  · rw [service_inactive hm]
    exact h.bus s _ _ _ hs

theorem transact (hs : P s) (es : List WireEvent) : P (transact es s) := by
  induction es generalizing s with
  | nil => exact h.bus s _ _ _ hs
  | cons e es ih =>
    rw [transact_cons]
    exact h.bus _ _ _ _ (ih (h.service hs e))

theorem access (hs : P s) (p : Half) (acc : Access) : P (accessAt p acc s) := by
  have hptr : P (s.setPtr p) := h.bus s _ _ _ hs
  cases acc with
  | point => exact h.bus s _ _ _ hs
  | read => exact h.fetch hptr _ _ _
  | write b => exact h.store hptr b _ _ _

end RegInvariant

/-! ## The bus state -/

/-- `BusMove b b'`: one wire event takes the bus state of an Active slave from `b` to `b'`. -/
inductive BusMove (b : BusState) : BusState → Prop where
  | keep : BusMove b b
  | close (q : Half) : BusMove b { b with phase := .idle, inTransfer := false, ack := false, ptr := q }
  | openWrite (q : Half) : BusMove b { b with dir := .w, phase := .addrHi, inTransfer := true, ack := true, ptr := q }
  | openRead (q : Half) : BusMove b { b with dir := .r, phase := .data, inTransfer := true, ack := true, ptr := q }
  | addrHi (x : Byte) (hp : b.phase = .addrHi) : BusMove b { b with addrHi := x, phase := .addrLo, ack := true }
  | addrLo (q : Half) (hp : b.phase = .addrLo) : BusMove b { b with ptr := q, phase := .data, ack := true }
  | store (q : Half) (hp : b.phase = .data) : BusMove b { b with ptr := q, ack := true }
  | fetch (q : Half) : BusMove b { b with ptr := q }
  | nack : BusMove b { b with phase := .idle, ack := false }

variable {s : State}

theorem busMove_close (s : State) (o : List Resp) : BusMove s.bus ((closeTransaction s).respond o).bus := by
  rw [closeTransaction_frame]
  exact .close _

theorem service_busMove (hm : s.bus.mode = .active) (e : WireEvent) : BusMove s.bus (service e s).bus := by
  have hskip (hp : s.bus.phase = .idle) (he : e.isDataEvent = true) : BusMove s.bus (service e s).bus := by
    rw [service_idle hm hp he]
    exact .keep
  have hreset (hw : s.ctx.expectsWrite = true) (he : e = .rack ∨ e = .rnack) : BusMove s.bus (service e s).bus := by
    rw [service_ackEvent_expectsWrite hm hw he]
    exact busMove_close s _
  cases e with
  | start a rw =>
    by_cases ha : a = s.cfg.slaveAddr
    · subst ha
      cases rw with
      | w =>
        rw [service_startW hm, busStartW, dropHalfPointer_frame]
        exact .openWrite _
      | r =>
        rw [service_startR hm, busStartR_eq]
        exact .openRead _
    · rw [service_startOther hm ha]
      exact busMove_close s _
  | wdata b =>
    rcases idle_or_read_or_expectsWrite s with hp | ⟨hp, hd⟩ | hw
    · exact hskip hp rfl
    · rw [service_wdata_read hm hp hd]
      exact busMove_close s _
    · rcases expectsWrite_iff.mp hw with hp | hp | ⟨hp, hd⟩
      · rw [service_wdata_addrHi hm hp]
        exact .addrHi b hp
      · rw [service_wdata_addrLo hm hp]
        exact .addrLo _ hp
      · have hbus : (regWrite s.bus.ptr b s).bus = s.bus := (congrArg State.bus (regWrite_frame s s.bus.ptr b) :)
        rw [service_wdata_write hm hp hd, busWrData, storeByte_eq, State.setPtr, hbus]
        exact .store _ hp
  | rack =>
    rcases idle_or_read_or_expectsWrite s with hp | ⟨hp, hd⟩ | hw
    · exact hskip hp rfl
    · rw [service_rack_read hm hp hd, busRdAck, fetchByte_eq, State.setPtr, regRead_bus]
      exact .fetch _
    · exact hreset hw (.inl rfl)
  | rnack =>
    rcases idle_or_read_or_expectsWrite s with hp | ⟨hp, hd⟩ | hw
    · exact hskip hp rfl
    · rw [service_rnack_read hm hp hd]
      exact .nack
    · exact hreset hw (.inr rfl)
  | stop =>
    rw [service_stop hm]
    exact busMove_close s _
  | busErr =>
    rw [service_busErr hm]
    exact busMove_close s _

theorem BusMove.mode_hgRun {b b' : BusState} (h : BusMove b b') : b'.mode = b.mode ∧ b'.hgRun = b.hgRun := by
  cases h <;> exact ⟨rfl, rfl⟩

section
variable {P : BusState → Prop} (hkeep : ∀ b b', b.mode = .active → BusMove b b' → P b → P b')
include hkeep

/-- A predicate on the bus state that every move keeps is kept by every event; a bus that is not Active does not
move. -/
theorem service_keeps_bus (hs : P s.bus) (e : WireEvent) : P (service e s).bus := by
  by_cases hm : s.bus.mode = .active
  · exact hkeep _ _ hm (service_busMove hm e) hs
  · rw [service_inactive hm]
    exact hs

theorem transact_keeps_bus (hs : P s.bus) (es : List WireEvent) : P (transact es s).bus := by
  induction es generalizing s with
  | nil => exact hs
  | cons e es ih =>
    rw [transact_cons]
    exact ih (service_keeps_bus hkeep hs e)

end

/-- No event and no run of events changes the bus mode or the hang guard. -/
theorem mode_hgRun_of_wire (e : WireEvent) :
    (service e s).bus.mode = s.bus.mode ∧ (service e s).bus.hgRun = s.bus.hgRun :=
  service_keeps_bus (P := fun b => b.mode = s.bus.mode ∧ b.hgRun = s.bus.hgRun)
    (fun _ _ _ hmove h => ⟨hmove.mode_hgRun.1.trans h.1, hmove.mode_hgRun.2.trans h.2⟩) ⟨rfl, rfl⟩ e

theorem mode_hgRun_of_host (es : List WireEvent) :
    (transact es s).bus.mode = s.bus.mode ∧ (transact es s).bus.hgRun = s.bus.hgRun :=
  transact_keeps_bus (P := fun b => b.mode = s.bus.mode ∧ b.hgRun = s.bus.hgRun)
    (fun _ _ _ hmove h => ⟨hmove.mode_hgRun.1.trans h.1, hmove.mode_hgRun.2.trans h.2⟩) ⟨rfl, rfl⟩ es

/-! ## The phase machine -/

theorem expectsWrite_of_idle (hp : s.bus.phase = .idle) : s.ctx.expectsWrite = false := by
  simp [Ctx.expectsWrite, State.ctx, hp]

theorem expectsWrite_of_read (hp : s.bus.phase = .data) (hd : s.bus.dir = .r) : s.ctx.expectsWrite = false := by
  simp [Ctx.expectsWrite, State.ctx, hp, hd]

/-- A start opens a transaction for this slave in the direction asked for, and ends any transaction where it is for
another address (40_register_bus.md R131 to R133). -/
theorem bus_service_start (hm : s.bus.mode = .active) (a : BitVec 7) (rw : Dir) :
    (a = s.cfg.slaveAddr → (service (.start a rw) s).bus.phase = (if rw = .w then .addrHi else .data) ∧
      (service (.start a rw) s).bus.inTransfer = true ∧ (service (.start a rw) s).bus.dir = rw) ∧
    (a ≠ s.cfg.slaveAddr → (service (.start a rw) s).bus.phase = .idle ∧
      (service (.start a rw) s).bus.inTransfer = false) := by
  refine ⟨?_, fun ha => ?_⟩
  · rintro rfl
    cases rw with
    | w => rw [service_startW hm]; exact ⟨rfl, rfl, rfl⟩
    | r => rw [service_startR hm, busStartR_eq]; exact ⟨rfl, rfl, rfl⟩
  · rw [service_startOther hm ha]
    exact ⟨rfl, rfl⟩

/-- The phase and the transaction flag after a data event, by the three columns of R141 and R142. -/
theorem bus_service_dataEvent (hm : s.bus.mode = .active) {e : WireEvent} (he : e.isDataEvent = true)
    (addressed : Bool) :
    (service e s).bus.phase = phaseTable addressed s.bus.phase s.bus.dir e ∧
      (service e s).bus.inTransfer = (s.bus.inTransfer && !(s.ctx.expectsWrite && e.isAckEvent) &&
        !(s.bus.phase == .data && s.bus.dir == .r && !e.isAckEvent)) := by
  rcases idle_or_read_or_expectsWrite s with hp | ⟨hp, hd⟩ | hw
  · rw [service_idle hm hp he, expectsWrite_of_idle hp, hp]
    cases e with
    | start | stop | busErr => exact absurd he Bool.false_ne_true
    | wdata | rack | rnack => simp [busIgnore, phaseTable, hp]
  · rw [expectsWrite_of_read hp hd, hp, hd]
    cases e with
    | start | stop | busErr => exact absurd he Bool.false_ne_true
    | wdata =>
      rw [service_wdata_read hm hp hd]
      simp [phaseTable, WireEvent.isAckEvent, busWdataInRead, raiseProtocolReset_eq, closeTransaction]
    | rack =>
      rw [service_rack_read hm hp hd, busRdAck, fetchByte_eq, State.setPtr, regRead_bus]
      simp [phaseTable, WireEvent.isAckEvent, hp]
    | rnack =>
      rw [service_rnack_read hm hp hd]
      simp [phaseTable, WireEvent.isAckEvent, busRdNack]
  · have hread : (s.bus.phase == .data && s.bus.dir == .r) = false := by
      rcases expectsWrite_iff.mp hw with hp | hp | ⟨hp, hd⟩ <;> simp [*]
    rw [hw, hread]
    cases e with
    | start | stop | busErr => exact absurd he Bool.false_ne_true
    | wdata =>
      rcases expectsWrite_iff.mp hw with hp | hp | ⟨hp, hd⟩
      · rw [service_wdata_addrHi hm hp, hp]
        simp [phaseTable, WireEvent.isAckEvent, busAddrHi]
      · rw [service_wdata_addrLo hm hp, hp]
        simp [phaseTable, WireEvent.isAckEvent, busAddrLo]
      · have hbus (b : Byte) : (regWrite s.bus.ptr b s).bus = s.bus :=
          (congrArg State.bus (regWrite_frame s s.bus.ptr b) :)
        rw [service_wdata_write hm hp hd, hp, hd]
        simp [phaseTable, WireEvent.isAckEvent, busWrData, storeByte_eq, hbus, hp]
    | rack | rnack =>
      rw [service_ackEvent_expectsWrite hm hw (by simp)]
      rcases expectsWrite_iff.mp hw with hp | hp | ⟨hp, hd⟩ <;>
        simp [phaseTable, WireEvent.isAckEvent, busAckInWrite, raiseProtocolReset_eq, closeTransaction, *]

/-- Settles O19: the event's row runs its service, and that is a start's, an end's or a data event's. -/
theorem phaseMachineFollowsTable : Obligations.PhaseMachineFollowsTable := by
  unfold Obligations.PhaseMachineFollowsTable
  intro s e hm
  refine ⟨service e s, exec_rowOfWire s e, (service_busMove hm e).mode_hgRun.1.trans hm, ?_⟩
  cases e with
  | start a rw =>
    obtain ⟨hown, hother⟩ := bus_service_start hm a rw
    refine ⟨?_, ?_, ?_, nofun, nofun⟩
    · by_cases ha : a = s.cfg.slaveAddr
      · rw [(hown ha).1]
        cases rw <;> simp [phaseTable, ha]
      · rw [(hother ha).1]
        cases rw <;> simp [phaseTable, ha]
    · rintro rw' ⟨⟩
      exact (hown rfl).2
    · rintro a' rw' ⟨⟩ ha
      exact (hother ha).2
  | stop =>
    rw [service_stop hm]
    exact ⟨rfl, nofun, nofun, fun _ => rfl, nofun⟩
  | busErr =>
    rw [service_busErr hm]
    exact ⟨rfl, nofun, nofun, fun _ => rfl, nofun⟩
  | wdata | rack | rnack =>
    refine ⟨?_, nofun, nofun, by simp, fun he => (bus_service_dataEvent hm he true).2⟩
    exact (bus_service_dataEvent hm rfl true).1

/-! ## What the host can reach -/

/-- A read changes no slot outside the measurement pairs, or it is the read of `STATUS` (20_memory.md R61). -/
theorem regRead_slot_cases (p : Half) (s : State) :
    WritesWithin (Finset.Icc 4 13) s (regRead p s).2 ∨ (regRead p s).2 = s.setShort false := by
  rcases regRead_spec s p with ⟨_, e⟩ | ⟨_, _, e⟩ | ⟨_, w, hw, e⟩ | ⟨_, _, _, e⟩ <;> rw [e]
  · exact .inl writesWithin_refl
  · exact .inr rfl
  · have hk : slotOf p = 4 ∨ slotOf p = 6 ∨ slotOf p = 8 ∨ slotOf p = 10 ∨ slotOf p = 12 := by
      simpa [hw] using resultOf_isSome s (slotOf p)
    rcases hk with hk | hk | hk | hk | hk <;> rw [hk] <;>
      exact .inl (setBe16_writesWithin w (by decide) (by decide))
  · exact .inl writesWithin_refl

/-- The system's slots as the host finds them: all as in `s` but for the `short` bit of `STATUS`. -/
def SystemSlotsAs (s t : State) : Prop :=
  t.cfg = s.cfg ∧ t.slot 0 = s.slot 0 ∧ t.slot 1 = s.slot 1 ∧ t.slot 3 = s.slot 3 ∧
    ∀ n, n ≠ s.cfg.stShortBit → (t.slot 2).getLsbD n = (s.slot 2).getLsbD n

theorem systemSlotsAs_regInvariant (s : State) : RegInvariant (SystemSlotsAs s) where
  bus _ _ _ _ h := h
  read p t h := by
    obtain ⟨hcfg, h0, h1, h3, h2⟩ := h
    have hcfg' : (regRead p t).2.cfg = t.cfg := (congrArg State.cfg (regRead_frame t p) :)
    rcases regRead_slot_cases p t with hkeep | hshort
    · refine ⟨hcfg'.trans hcfg, ?_, ?_, ?_, fun n hn => ?_⟩ <;> rw [hkeep _ (by decide)]
      exacts [h0, h1, h3, h2 n hn]
    · rw [hshort]
      refine ⟨hcfg, ?_, ?_, ?_, fun n hn => ?_⟩ <;> rw [slot_setShort]
      · exact h0
      · exact h1
      · exact h3
      · rw [if_pos rfl, getLsbD_putBit, hcfg, if_neg (fun h => hn h.1), h2 n hn]
  write p b t h := by
    obtain ⟨hcfg, h0, h1, h3, h2⟩ := h
    have hcfg' : (regWrite p b t).cfg = t.cfg := (congrArg State.cfg (regWrite_frame t p b) :)
    have hkeep := regWrite_writesWithin p b t
    refine ⟨hcfg'.trans hcfg, ?_, ?_, ?_, fun n hn => ?_⟩ <;> rw [hkeep _ (by decide)]
    exacts [h0, h1, h3, h2 n hn]

/-- Settles O22: a bus step is one wire event or a run of them; the fields by their frames, the bus mode by the moves of
the bus state, the system's slots by what reads and writes keep. -/
theorem hostReachesRegisterSpaceOnly : Obligations.HostReachesRegisterSpaceOnly := by
  unfold Obligations.HostReachesRegisterSpaceOnly
  intro i s t hbus ht
  have hstart : SystemSlotsAs s s := ⟨rfl, rfl, rfl, rfl, fun _ _ => rfl⟩
  cases effect_of_exec ht with
  | wire e =>
    obtain ⟨hmode, hguard⟩ := mode_hgRun_of_wire (s := s) e
    obtain ⟨-, h0, h1, h3, h2⟩ := (systemSlotsAs_regInvariant s).service hstart e
    exact ⟨service_frame s e, hmode, hguard, h0, h1, h3, h2⟩
  | host es =>
    obtain ⟨hmode, hguard⟩ := mode_hgRun_of_host (s := s) es
    obtain ⟨-, h0, h1, h3, h2⟩ := (systemSlotsAs_regInvariant s).transact hstart es
    exact ⟨transact_frame s es, hmode, hguard, h0, h1, h3, h2⟩
  | access _ _ hpart => simp [Instr.isBusStep, hpart] at hbus
  | eval c => cases c <;> exact absurd hbus Bool.false_ne_true
  | _ => exact absurd hbus Bool.false_ne_true

end Sys2Proof.Machine
end

section
/-! Which instruction changes the stores, the rails, and the fields that an open transaction freezes: O6, O53, O59, O31
and O32. -/

namespace Sys2Proof.Machine

/-! ## The byte stores -/

theorem storesOk_iff (s : State) :
    storesOk s = true ↔ Memory.wf Config.persistSize s.mem = true ∧ Memory.wf Config.nvMirrorSize s.nv = true := by
  rw [storesOk, Bool.and_eq_true]

theorem storesOk_of_eq {s t : State} (hmem : t.mem = s.mem) (hnv : t.nv = s.nv) (h : storesOk s = true) :
    storesOk t = true := by
  rw [storesOk, hmem, hnv]
  exact h

theorem storesOk_regInvariant : RegInvariant (fun s => storesOk s = true) where
  bus _ _ _ _ h := h
  read p s h := by
    have hframe := regRead_frame s p
    exact storesOk_of_eq (congrArg State.mem hframe :) (congrArg State.nv hframe :) h
  write p b s h := by
    rcases regWrite_spec s p b with ⟨hp, e⟩ | ⟨_, _, e⟩ | ⟨_, _, e⟩ | ⟨_, _, _, e⟩ <;> rw [e]
    · rw [storesOk_iff] at h ⊢
      exact ⟨Memory.wf_write h.1 hp, h.2⟩
    all_goals exact h

/-- A batch ends at the mirror's end at the latest, and copies nothing from beyond it (46_boundary_modules.md R301). -/
theorem wf_batch {s : State} (h : Memory.wf Config.nvMirrorSize s.nv = true) :
    Memory.wf Config.nvMirrorSize (Memory.copy s.mem s.ps.idx s.batch s.nv) = true := by
  by_cases hidx : s.ps.idx ≤ Config.nvMirrorSize
  · refine Memory.wf_copy h ?_
    rw [State.batch]
    omega
  · have hnone : s.batch = 0 := by
      rw [State.batch]
      omega
    rw [hnone]
    exact h

theorem storesOk_evalPs {s : State} (h : storesOk s = true) : storesOk (evalPs s) = true := by
  obtain ⟨hmem, hnv⟩ := (storesOk_iff s).mp h
  rw [storesOk_iff]
  unfold evalPs
  split
  next hw =>
    rw [psWriteBack_eq hw]
    split <;> exact ⟨hmem, wf_batch hnv⟩
  next =>
    split
    · exact ⟨hmem, Memory.wf_fill _ _⟩
    · split
      · exact ⟨Memory.wf_below_append_above (Memory.wf_mono hnv (by decide)) hmem, hnv⟩
      · exact ⟨hmem, hnv⟩

/-- No evaluation but the persistent store's touches a store (20_memory.md R77). -/
theorem stores_evalConsumer {c : Consumer} (hc : c ≠ .ps) (p : Pins) (s : State) :
    (evalConsumer c p s).mem = s.mem ∧ (evalConsumer c p s).nv = s.nv := by
  cases c with
  | ps => exact absurd rfl hc
  | rtc => exact ⟨(congrArg State.mem (evalRtc_frame s) :), (congrArg State.nv (evalRtc_frame s) :)⟩
  | dio => exact ⟨(congrArg State.mem (evalDio_frame s p) :), (congrArg State.nv (evalDio_frame s p) :)⟩
  | ind => exact ⟨(congrArg State.mem (evalInd_frame s) :), (congrArg State.nv (evalInd_frame s) :)⟩
  | run => exact ⟨(congrArg State.mem (evalRun_frame s) :), (congrArg State.nv (evalRun_frame s) :)⟩

theorem storesOk_evalConsumer (c : Consumer) (p : Pins) {s : State} (h : storesOk s = true) :
    storesOk (evalConsumer c p s) = true := by
  by_cases hc : c = .ps
  · subst hc
    exact storesOk_evalPs h
  · obtain ⟨hmem, hnv⟩ := stores_evalConsumer hc p s
    exact storesOk_of_eq hmem hnv h

theorem storesOk_loopStep (p : Pins) {s : State} (h : storesOk s = true) : storesOk (loopStep p s) = true := by
  rcases loopStep_cases p s with e | ⟨-, u, e, rfl | ⟨-, -, rfl⟩⟩ <;> rw [e]
  · exact h
  · exact h
  · exact storesOk_evalConsumer s.loopPos p (s := { s with wdtCnt := _, sched := _ }) h

/-- A reset loads the mirror from `nv` (70_reset_and_hazards.md R350). -/
theorem storesOk_powerOnReset (p : Pins) {s : State} (h : storesOk s = true) : storesOk (powerOnReset p s) = true := by
  obtain ⟨-, hnv⟩ := (storesOk_iff s).mp h
  exact (storesOk_iff _).mpr ⟨Memory.wf_below (Memory.wf_mono hnv (by decide)), hnv⟩

theorem storesOk_of_effect {s t : State} {i : Instr} (heffect : Effect s i t) (h : storesOk s = true) :
    storesOk t = true := by
  cases heffect with
  | wire e => exact storesOk_regInvariant.service h e
  | host es => exact storesOk_regInvariant.transact h es
  | access p acc => exact storesOk_regInvariant.access h p acc
  | statusFields | dinFields | resume | evalRtcHeld => exact h
  | hangguard => rw [hangGuard_frame]; exact h
  | suspend | shutdown =>
    exact storesOk_of_eq (congrArg State.mem (detachBus_eq s _) :) (congrArg State.nv (detachBus_eq s _) :) h
  | tick => rw [oneTick_frame]; exact h
  | loopStep p => exact storesOk_loopStep p h
  | eval c p => exact storesOk_evalConsumer c p h
  | wdtExpire p =>
    rcases watchdogExpire_cases p s with e | e <;> rw [e]
    · exact storesOk_powerOnReset p h
    · exact h
  | second => rw [oneSecond_frame]; exact h
  | sample ch v => rw [sampleResult_frame]; exact h
  | powerOn p => exact storesOk_powerOnReset p h
  | wakeup p => rcases wakeUp_cases p s with ⟨-, e⟩ | ⟨-, e⟩ <;> rw [e] <;> exact h

/-- Settles O6: the operation of the decoded event keeps both stores, and bytes passed over touch none. -/
theorem stepKeepsCanonicalStores : Obligations.StepKeepsCanonicalStores := by
  unfold Obligations.StepKeepsCanonicalStores
  intro s t h hstep
  rcases step_cases s with ⟨i, rest, -, e⟩ | ⟨err, -, e⟩
  · exact storesOk_of_effect (effect_of_exec (e.symm.trans hstep)) (s := s.take rest) h
  · obtain rfl := Host.Outcome.next.inj (e.symm.trans hstep)
    exact h

/-- Settles O53: `nv` by the frame of each operation; the loop's poll evaluates the persistent store only at its
position with its flag set. -/
theorem onlyTheStoreWritesNv : Obligations.OnlyTheStoreWritesNv := by
  unfold Obligations.OnlyTheStoreWritesNv
  intro i s t ht
  cases effect_of_exec ht with
  | wire e => exact .inl (congrArg State.nv (service_frame s e) :)
  | host es => exact .inl (congrArg State.nv (transact_frame s es) :)
  | access p acc => exact .inl (congrArg State.nv (accessAt_frame p acc s) :)
  | statusFields | dinFields | resume | evalRtcHeld | powerOn => exact .inl rfl
  | hangguard => exact .inl (congrArg State.nv (hangGuard_frame s) :)
  | suspend | shutdown => exact .inl (congrArg State.nv (detachBus_eq s _) :)
  | tick => exact .inl (congrArg State.nv (oneTick_frame s) :)
  | loopStep p =>
    rcases loopStep_cases p s with e | ⟨hrun, u, e, rfl | ⟨hflag, -, rfl⟩⟩ <;> rw [e]
    · exact .inl rfl
    · exact .inl rfl
    · by_cases hpos : s.loopPos = .ps
      · rw [hpos] at hflag
        exact .inr (.inr ⟨p, rfl, hpos, hflag, hrun⟩)
      · exact .inl (stores_evalConsumer hpos p _).2
  | eval c p =>
    by_cases hc : c = .ps
    · subst hc
      exact .inr (.inl rfl)
    · exact .inl (stores_evalConsumer hc p s).2
  | wdtExpire p => rcases watchdogExpire_cases p s with e | e <;> rw [e] <;> exact .inl rfl
  | second => exact .inl (congrArg State.nv (oneSecond_frame s) :)
  | sample ch v => exact .inl (congrArg State.nv (sampleResult_frame s ch v) :)
  | wakeup p => rcases wakeUp_cases p s with ⟨-, e⟩ | ⟨-, e⟩ <;> rw [e] <;> exact .inl rfl

/-! ## The rails -/

/-- Rails, backlight gate, bus mode, hang guard and run state are as before (45_power_sequencer.md R280). -/
def RailsAs (s t : State) : Prop :=
  t.mainRail = s.mainRail ∧ t.auxRail = s.auxRail ∧ t.blOn = s.blOn ∧ t.bus.mode = s.bus.mode ∧
    t.bus.hgRun = s.bus.hgRun ∧ t.run = s.run

theorem railsAs_refl (s : State) : RailsAs s s := ⟨rfl, rfl, rfl, rfl, rfl, rfl⟩

/-- A transfer through a pointer row moves the pointer and nothing else of the bus (assumption log 7). -/
theorem accessAt_bus (p : Half) (acc : Access) (s : State) :
    ∃ q, (accessAt p acc s).bus = { s.bus with ptr := q } := by
  cases acc with
  | point => exact ⟨p, rfl⟩
  | read =>
    refine ⟨p + 1#16, ?_⟩
    rw [accessAt, fetchByte_eq, respond_bus, setPtr_bus, regRead_bus]
    rfl
  | write b =>
    refine ⟨p + 1#16, ?_⟩
    have hbus : (regWrite (s.setPtr p).bus.ptr b (s.setPtr p)).bus = (s.setPtr p).bus :=
      (congrArg State.bus (regWrite_frame _ _ b) :)
    rw [accessAt, storeByte_eq, respond_bus, setPtr_bus, hbus]
    rfl

/-- No evaluation but the sequencer's switches anything. -/
theorem railsAs_evalConsumer {c : Consumer} (hc : c ≠ .run) (p : Pins) (s : State) :
    RailsAs s (evalConsumer c p s) := by
  cases c with
  | run => exact absurd rfl hc
  | ps => rw [evalConsumer, evalPs_frame]; exact railsAs_refl s
  | rtc => rw [evalConsumer, evalRtc_frame]; exact railsAs_refl s
  | dio => rw [evalConsumer, evalDio_frame]; exact railsAs_refl s
  | ind => rw [evalConsumer, evalInd_frame]; exact railsAs_refl s

/-- Settles O59: the operations that are not listed leave all six by their frames, the bus events by their moves. -/
theorem onlySequencerSwitchesRails : Obligations.OnlySequencerSwitchesRails := by
  unfold Obligations.OnlySequencerSwitchesRails
  intro i s t ht
  cases effect_of_exec ht with
  | wire e =>
    obtain ⟨hmode, hguard⟩ := mode_hgRun_of_wire (s := s) e
    have hframe := service_frame s e
    exact .inl ⟨(congrArg State.mainRail hframe :), (congrArg State.auxRail hframe :), (congrArg State.blOn hframe :),
      hmode, hguard, (congrArg State.run hframe :)⟩
  | host es =>
    obtain ⟨hmode, hguard⟩ := mode_hgRun_of_host (s := s) es
    have hframe := transact_frame s es
    exact .inl ⟨(congrArg State.mainRail hframe :), (congrArg State.auxRail hframe :), (congrArg State.blOn hframe :),
      hmode, hguard, (congrArg State.run hframe :)⟩
  | access p acc =>
    obtain ⟨q, hbus⟩ := accessAt_bus p acc s
    have hframe := accessAt_frame p acc s
    exact .inl ⟨(congrArg State.mainRail hframe :), (congrArg State.auxRail hframe :), (congrArg State.blOn hframe :),
      (congrArg BusState.mode hbus :), (congrArg BusState.hgRun hbus :), (congrArg State.run hframe :)⟩
  | statusFields | dinFields | evalRtcHeld => exact .inl (railsAs_refl s)
  | suspend => exact .inr (.inr (.inl rfl))
  | resume => exact .inr (.inr (.inr (.inl rfl)))
  | shutdown => exact .inr (.inr (.inr (.inr (.inl rfl))))
  | hangguard => rw [hangGuard_frame]; exact .inl (railsAs_refl s)
  | tick => rw [oneTick_frame]; exact .inl (railsAs_refl s)
  | loopStep p =>
    rcases loopStep_cases p s with e | ⟨-, u, e, rfl | ⟨hflag, -, rfl⟩⟩ <;> rw [e]
    · exact .inl (railsAs_refl s)
    · exact .inl (railsAs_refl s)
    · by_cases hpos : s.loopPos = .run
      · rw [hpos] at hflag
        exact .inr (.inr (.inr (.inr (.inr (.inl ⟨p, rfl, hpos, hflag⟩)))))
      · exact .inl (railsAs_evalConsumer hpos p _)
  | eval c p =>
    by_cases hc : c = .run
    · subst hc
      exact .inr (.inl rfl)
    · exact .inl (railsAs_evalConsumer hc p s)
  | powerOn p => exact .inr (.inr (.inr (.inr (.inr (.inr ⟨p, .inl rfl⟩)))))
  | wdtExpire p => exact .inr (.inr (.inr (.inr (.inr (.inr ⟨p, .inr (.inl rfl)⟩)))))
  | wakeup p => exact .inr (.inr (.inr (.inr (.inr (.inr ⟨p, .inr (.inr rfl)⟩)))))
  | second => rw [oneSecond_frame]; exact .inl (railsAs_refl s)
  | sample ch v => rw [sampleResult_frame]; exact .inl (railsAs_refl s)

/-! ## Steps inside the block -/

/-- What the sequencer does to the bus: nothing, or it leaves no transaction (40_register_bus.md R145 to R147). -/
theorem SeqMove.bus_cases {s t : State} (h : SeqMove s t) :
    t.bus = s.bus ∨ t.bus.phase = .idle ∧ t.bus.inTransfer = false := by
  cases h with
  | stay hu => exact .inl hu.bus
  | toCharge => rw [goCharge_eq]; exact .inr ⟨rfl, rfl⟩
  | toSleep => rw [goSleep_eq]; exact .inr ⟨rfl, rfl⟩
  | toWait | toPowerOff => exact .inl rfl
  | toPower | waitToPower => exact .inr ⟨rfl, rfl⟩

/-- The slots that the block's own steps write: `STATUS`, `DIN`, `SHDN`, `NVCTL`, and the four of `TIME`. -/
def blockSlots : Finset (Fin 32) := {2, 3, 16, 18, 19, 20, 21, 22}

/-- `Kept s t`: the bus state is kept but for the acknowledge line, and the block's own slots alone are written, `TIME`
only outside a transaction (20_memory.md R71, R76). -/
def Kept (s t : State) : Prop :=
  (∃ a, t.bus = { s.bus with ack := a }) ∧ WritesWithin blockSlots s t ∧
    (s.bus.inTransfer = true → WritesWithin {2, 3, 16, 18} s t)

theorem kept_refl (s : State) : Kept s s := ⟨⟨s.bus.ack, rfl⟩, writesWithin_refl, fun _ => writesWithin_refl⟩

theorem Kept.trans {s t u : State} (hst : Kept s t) (htu : Kept t u) : Kept s u := by
  obtain ⟨⟨a, hbus⟩, hslots, hopen⟩ := hst
  obtain ⟨⟨a', hbus'⟩, hslots', hopen'⟩ := htu
  refine ⟨⟨a', by rw [hbus', hbus]⟩, hslots.trans hslots', fun h => (hopen h).trans (hopen' ?_)⟩
  rw [hbus]
  exact h

/-- `Inside s t`: a step inside the block ends the transaction, or keeps it. -/
def Inside (s t : State) : Prop := (t.bus.phase = .idle ∧ t.bus.inTransfer = false) ∨ Kept s t

theorem inside_of_writesWithin {s t : State} (hbus : t.bus = s.bus) (h : WritesWithin {2, 3, 16, 18} s t) :
    Inside s t :=
  .inr ⟨⟨s.bus.ack, hbus⟩, h.mono (by decide), fun _ => h⟩

theorem inside_of_slots_eq {s t : State} (hbus : t.bus = s.bus) (h : t.slots = s.slots) : Inside s t :=
  inside_of_writesWithin hbus (writesWithin_of_slots_eq h)

theorem inside_evalConsumer (c : Consumer) (p : Pins) (s : State) (hfree : c = .rtc → s.bus.inTransfer = false) :
    Inside s (evalConsumer c p s) := by
  cases c with
  | ps =>
    exact inside_of_writesWithin (congrArg State.bus (evalPs_frame s) :) ((evalPs_writesWithin s).mono (by decide))
  | rtc =>
    refine .inr ⟨⟨s.bus.ack, (congrArg State.bus (evalRtc_frame s) :)⟩, (evalRtc_writesWithin s).mono (by decide),
      fun hopen => ?_⟩
    exact absurd (hopen.symm.trans (hfree rfl)) nofun
  | dio =>
    exact inside_of_writesWithin (congrArg State.bus (evalDio_frame s p) :)
      ((evalDio_writesWithin p s).mono (by decide))
  | ind => exact inside_of_slots_eq (congrArg State.bus (evalInd_frame s) :) (slots_evalInd s)
  | run =>
    rcases (evalRun_move s).bus_cases with hbus | hend
    · exact inside_of_writesWithin hbus ((evalRun_writesWithin s).mono (by decide))
    · exact .inl hend

theorem isAgentStep_of_internal {i : Instr} (hi : i.isInternalStep = true) : i.isAgentStep = true := by
  cases i with
  | hangguard | tick | loopStep | wdtExpire | second | sample | powerOn | wakeup => rfl
  | _ => exact absurd hi Bool.false_ne_true

theorem inside_of_effect {s t : State} {i : Instr} (h : Effect s i t) (hi : i.isInternalStep = true) : Inside s t := by
  cases h with
  | wire _ hbus | host _ hbus => simp [Instr.isBusStep, hi] at hbus
  | access _ _ hpart => exact absurd ((isAgentStep_of_internal hi).symm.trans hpart) nofun
  | statusFields | dinFields | suspend | resume | shutdown | evalRtcHeld => exact absurd hi Bool.false_ne_true
  | eval c => cases c <;> exact absurd hi Bool.false_ne_true
  | hangguard =>
    exact .inr ⟨⟨(hangGuard s).bus.ack, (congrArg State.bus (hangGuard_frame s) :)⟩,
      writesWithin_of_slots_eq (slots_hangGuard s), fun _ => writesWithin_of_slots_eq (slots_hangGuard s)⟩
  | tick => exact inside_of_slots_eq (congrArg State.bus (oneTick_frame s) :) (slots_oneTick s)
  | loopStep p =>
    rcases loopStep_cases p s with e | ⟨-, u, e, rfl | ⟨-, hfree, rfl⟩⟩ <;> rw [e]
    · exact inside_of_slots_eq rfl rfl
    · exact inside_of_slots_eq rfl rfl
    · exact inside_evalConsumer s.loopPos p { s with wdtCnt := _, sched := _ } hfree
  | wdtExpire p =>
    rcases watchdogExpire_cases p s with e | e <;> rw [e]
    · exact .inl ⟨rfl, rfl⟩
    · exact inside_of_slots_eq rfl rfl
  | second => exact inside_of_slots_eq (congrArg State.bus (oneSecond_frame s) :) (slots_oneSecond s)
  | sample ch v =>
    exact inside_of_slots_eq (congrArg State.bus (sampleResult_frame s ch v) :) (slots_sampleResult ch v s)
  | powerOn p => exact .inl ⟨rfl, rfl⟩
  | wakeup p =>
    have hbus : (wakeUp p s).bus = s.bus := by
      rcases wakeUp_cases p s with ⟨-, e⟩ | ⟨-, e⟩
      · rw [e, wakeEntry_eq]
      · rw [e]
    exact inside_of_writesWithin hbus ((wakeUp_writesWithin p s).mono (by decide))

/-! ## Runs of steps inside the block -/

theorem runs_cons_some {i : Instr} {is : List Instr} {s u : State} (h : runs (i :: is) s = some u) :
    ∃ t, exec i s = .next t ∧ runs is t = some u := by
  unfold runs at h
  split at h
  next t ht => exact ⟨t, ht, h⟩
  all_goals exact absurd h nofun

/-- A run of steps inside the block at whose end a transaction or a phase of one is left kept it all along. -/
theorem kept_of_runs {is : List Instr} {s u : State} (hi : ∀ i ∈ is, i.isInternalStep = true)
    (hrun : runs is s = some u) (hopen : u.bus.phase ≠ .idle ∨ u.bus.inTransfer = true) : Kept s u := by
  induction is generalizing s with
  | nil =>
    obtain rfl : s = u := Option.some.inj hrun
    exact kept_refl s
  | cons i is ih =>
    obtain ⟨t, ht, hrun'⟩ := runs_cons_some hrun
    have hrest := ih (fun j hj => hi j (List.mem_cons_of_mem i hj)) hrun'
    rcases inside_of_effect (effect_of_exec ht) (hi i List.mem_cons_self) with ⟨hphase, hflag⟩ | hkept
    · obtain ⟨⟨a, hbus⟩, -, -⟩ := hrest
      rw [hbus] at hopen
      rcases hopen with h | h
      · exact absurd hphase h
      · exact absurd (h.symm.trans hflag) nofun
    · exact hkept.trans hrest

/-- Settles O31: the run kept the transaction, so it wrote none of the slots named. -/
theorem openTransactionFreezesFields : Obligations.OpenTransactionFreezesFields := by
  unfold Obligations.OpenTransactionFreezesFields
  intro is s u hi hrun hopen
  obtain ⟨⟨a, hbus⟩, -, hslots⟩ := kept_of_runs hi hrun (.inr hopen)
  rw [hbus] at hopen ⊢
  refine ⟨fun k hk => hslots hopen k ?_, rfl, rfl, rfl, hopen⟩
  have hnot : ∀ k : Fin 32, k ∈ ({2, 3, 16, 18} : Finset (Fin 32)) → ¬((4 ≤ k.val ∧ k.val ≤ 13) ∨ 19 ≤ k.val) := by
    decide
  exact fun hmem => hnot k hmem hk

/-! ## A measurement read in two fetches -/

/-- The fetch that opens a measurement read: by the start of the read from any phase, or by an acknowledge within it,
`RegRead` at the pointer of the fetch, with the slave left in the data phase of a read. -/
theorem first_fetch {s s' : State} {q : Half} {first : Instr} (hm : s.bus.mode = .active)
    (hfirst : first = .startR ∨ (first = .rdAck ∧ s.bus.phase = .data ∧ s.bus.dir = .r))
    (hs' : exec first s = .next s') (hq : s'.bus.ptr = q + 1#16) :
    s'.bus.mode = .active ∧ s'.bus.dir = .r ∧ (∀ k, s'.slot k = (regRead q s).2.slot k) ∧
      s'.out = if first = .startR then [.ack, .tx (regRead q s).1] else [.tx (regRead q s).1] := by
  rcases hfirst with rfl | ⟨rfl, hp, hd⟩
  · obtain rfl : busStartR s = s' := Host.Outcome.next.inj ((congrArg _ (service_startR hm).symm).trans hs')
    rw [busStartR_eq] at hq ⊢
    obtain rfl : (dropHalfPointer s).bus.ptr = q := add_right_cancel hq
    exact ⟨hm, rfl, fun _ => rfl, rfl⟩
  · obtain rfl : busRdAck s = s' := Host.Outcome.next.inj ((congrArg _ (service_rack_read hm hp hd).symm).trans hs')
    rw [busRdAck, fetchByte_eq] at hq ⊢
    obtain rfl : s.bus.ptr = q := add_right_cancel hq
    rw [respond_bus, setPtr_bus, regRead_bus]
    exact ⟨hm, hd, fun _ => rfl, rfl⟩

/-- The slot after a high-byte slot, as a number, and that it is written by no step inside the block. -/
theorem lowSlot_facts (j : Fin 5) :
    (highSlot j).val < 31 ∧ (highSlot j + 1).val = (highSlot j).val + 1 ∧ highSlot j + 1 ∉ blockSlots := by
  decide +revert

/-- The slot after a high-byte slot is a plain one. -/
theorem lowSlot_plain (j : Fin 5) : highSlot j + 1 ≠ 2 ∧ ∀ i, highSlot j + 1 ≠ highSlot i := by
  decide +revert

/-- A pointer below the last advances without wrapping (20_memory.md R63). -/
theorem toNat_succ_of_lt {q : Half} (hq : q.toNat < 65535) : (q + 1#16).toNat = q.toNat + 1 := by
  rw [BitVec.toNat_add]
  change (q.toNat + 1) % 65536 = q.toNat + 1
  omega

/-- A pointer at a slot below the last advances without wrapping. -/
theorem toNat_succ_of_slot {q : Half} (hq : q.toNat % 32 < 31) : (q + 1#16).toNat = q.toNat + 1 := by
  have hlt : q.toNat < 65536 := q.isLt
  exact toNat_succ_of_lt (by omega)

/-- A read of a plain slot sends it and changes nothing. -/
theorem regRead_of_slot {p : Half} {k : Fin 32} (s : State) (hp : ¬ p.toNat < Config.persistSize) (hslot : slotOf p = k)
    (hstatus : k ≠ 2) (hhigh : ∀ j, k ≠ highSlot j) : regRead p s = (s.slot k, s) := by
  subst hslot
  exact regRead_plain s hp hstatus (resultOf_eq_none s hhigh)

/-- A read through a pointer at a low-byte slot sends the slot. -/
theorem regRead_lowSlot (s : State) {p : Half} (j : Fin 5) (hp : 4096 ≤ p.toNat)
    (hk : p.toNat % 32 = (highSlot j + 1).val) : (regRead p s).1 = s.slot (highSlot j + 1) := by
  obtain ⟨hstatus, hhigh⟩ := lowSlot_plain j
  rw [regRead_of_slot s (not_persist_of_le hp) (slotOf_eq_iff.mpr hk) hstatus hhigh]

/-- Settles O32: the first fetch latches the pair, the run between keeps the low slot and the pointer, and the second
fetch sends that slot. -/
theorem measurementReadIsOneResult : Obligations.MeasurementReadIsOneResult := by
  unfold Obligations.MeasurementReadIsOneResult
  intro is j q first s s' u u' hm hfirst hs' hq hhigh hslot hi hrun hphase hu'
  obtain ⟨hm', hd', hslots', hout'⟩ := first_fetch hm hfirst hs' hq
  obtain ⟨hlast, hnum, hfree⟩ := lowSlot_facts j
  obtain ⟨⟨a, hbus⟩, hkeep, -⟩ := kept_of_runs hi hrun (.inl (by simp [hphase]))
  obtain ⟨hbyte, -, hlow, -⟩ := (registerReadRule s q).2.2.2.1 j hhigh hslot
  have hnext : (q + 1#16).toNat = q.toNat + 1 := toNat_succ_of_slot (by omega)
  have hsecond : (regRead (q + 1#16) u).1 = loByte (resultAt s j) := by
    rw [regRead_lowSlot u j (by omega) (by rw [hnext]; omega), hkeep _ hfree, hslots', hlow]
  have hrack : service .rack u = busRdAck u :=
    service_rack_read (by rw [hbus]; exact hm') hphase (by rw [hbus]; exact hd')
  obtain rfl : busRdAck u = u' := Host.Outcome.next.inj ((congrArg _ hrack.symm).trans hu')
  refine ⟨by rw [hout', hbyte], ?_⟩
  have hptr : u.bus.ptr = q + 1#16 := by rw [hbus]; exact hq
  rw [busRdAck, fetchByte_eq, respond_out, hptr, hsecond]

end Sys2Proof.Machine
end

section
/-! The output table, the coherence of the bus state and the halt in Sleep: O7, and with the hang guard and the
lifecycle operations O21. -/

namespace Sys2Proof.Machine

/-! ## The coherence of the bus state -/

theorem busOk_iff (b : BusState) :
    busOk b = true ↔
      b.hgRun = (b.mode == .active) ∧ (b.mode = .active ∨ b.phase = .idle ∧ b.inTransfer = false ∧ b.ack = false) ∧
      (b.ack = true → b.inTransfer = true) ∧ (b.phase ≠ .idle → b.inTransfer = true) ∧
      (b.phase = .addrHi ∨ b.phase = .addrLo → b.dir = .w) := by
  simp only [busOk, Bool.and_eq_true, beq_iff_eq, Bool.or_eq_true, Bool.not_eq_true', Bool.or_eq_false_iff,
    beq_eq_false_iff_ne]
  cases b.ack <;> cases b.phase <;> simp [and_assoc]

/-- A slave in no transaction is coherent where its hang guard fits its mode. -/
theorem busOk_of_idle (b : BusState) (m : BusMode) (q : Half) :
    busOk { b with
      mode := m, hgRun := m == .active, ack := false, phase := .idle, inTransfer := false, ptr := q } = true := by
  simp [busOk_iff]

/-- Every wire event keeps an Active slave coherent: a phase other than Idle is inside a transaction, so what is
acknowledged there is too. -/
theorem BusMove.busOk {b b' : BusState} (hm : b.mode = .active) (hmove : BusMove b b') (h : busOk b = true) :
    Sys2Proof.busOk b' = true := by
  rw [busOk_iff] at h ⊢
  obtain ⟨hguard, -, hack, hphase, hdir⟩ := h
  cases hmove with
  | keep => exact ⟨hguard, .inl hm, hack, hphase, hdir⟩
  | close | nack => exact ⟨hguard, .inl hm, nofun, fun h => absurd rfl h, by simp⟩
  | openWrite => exact ⟨hguard, .inl hm, fun _ => rfl, fun _ => rfl, fun _ => rfl⟩
  | openRead => exact ⟨hguard, .inl hm, fun _ => rfl, fun _ => rfl, by simp⟩
  | addrHi x hp =>
    exact ⟨hguard, .inl hm, fun _ => hphase (by simp [hp]), fun _ => hphase (by simp [hp]), fun _ => hdir (.inl hp)⟩
  | addrLo q hp => exact ⟨hguard, .inl hm, fun _ => hphase (by simp [hp]), fun _ => hphase (by simp [hp]), by simp⟩
  | store q hp => exact ⟨hguard, .inl hm, fun _ => hphase (by simp [hp]), hphase, hdir⟩
  | fetch => exact ⟨hguard, .inl hm, hack, hphase, hdir⟩

/-! ## The hang guard -/

/-- The hang guard where it is enabled releases an acknowledge line that no transaction holds (40_register_bus.md
R144). -/
theorem hangGuard_of_enabled {s : State} (hrun : s.bus.hgRun = true) (hhalt : s.halted = false) :
    hangGuard s = { s with bus := { s.bus with ack := s.bus.ack && s.bus.inTransfer } } := by
  unfold hangGuard
  split
  next h =>
    have hopen : s.bus.inTransfer = false := by simpa [hrun, hhalt] using h
    rw [show (s.bus.ack && s.bus.inTransfer) = false by rw [hopen, Bool.and_false]]
  next h =>
    have hopen : s.bus.inTransfer = true := by simpa [hrun, hhalt] using h
    rw [show (s.bus.ack && s.bus.inTransfer) = s.bus.ack by rw [hopen, Bool.and_true]]

theorem hangGuard_of_disabled {s : State} (h : s.bus.hgRun = false ∨ s.halted = true) : hangGuard s = s := by
  rcases h with h | h <;> simp [hangGuard, h]

/-- On a coherent bus there is nothing to release. -/
theorem hangGuard_of_busOk {s : State} (h : busOk s.bus = true) : hangGuard s = s := by
  obtain ⟨-, -, hack, -, -⟩ := (busOk_iff s.bus).mp h
  have hkeep : (s.bus.ack && s.bus.inTransfer) = s.bus.ack := by
    cases ha : s.bus.ack
    · rfl
    · exact hack ha
  by_cases hoff : s.bus.hgRun = false ∨ s.halted = true
  · exact hangGuard_of_disabled hoff
  · simp only [not_or, Bool.not_eq_false, Bool.not_eq_true] at hoff
    rw [hangGuard_of_enabled hoff.1 hoff.2, hkeep]

/-- Settles O21: the hang guard by the two conditions of R144, and the lifecycle operations over the pointer kept or
drawn. -/
theorem hangGuardAndLifecycleOperations : Obligations.HangGuardAndLifecycleOperations := by
  unfold Obligations.HangGuardAndLifecycleOperations
  intro s
  refine ⟨fun hrun hhalt => congrArg Host.Outcome.next (hangGuard_of_enabled hrun hhalt),
    fun h => congrArg Host.Outcome.next (hangGuard_of_disabled h),
    fun h => congrArg Host.Outcome.next (hangGuard_of_busOk h), rfl, _, _, fun hp => ⟨if_neg hp, if_neg hp⟩,
    congrArg Host.Outcome.next (detachBus_eq s _), congrArg Host.Outcome.next (detachBus_eq s _)⟩

/-! ## The output table -/

/-- The outputs are the run state's row and the bus state is coherent; nothing is said of the halt. -/
def RowOk (s : State) : Prop := outputsOf s = outputTable s.run ∧ busOk s.bus = true

theorem powerOk_iff (s : State) : powerOk s = true ↔ RowOk s ∧ s.halted = (s.run == .sleep) := by
  simp only [powerOk, RowOk, Bool.and_eq_true, beq_iff_eq]

/-- The row of R285 field by field. -/
theorem outputsOf_eq_iff (s : State) (r : OutputRow) :
    outputsOf s = r ↔
      s.mainRail = r.mainRail ∧ s.auxRail = r.auxRail ∧ s.blOn = r.blOn ∧ s.bus.mode = r.mode ∧ s.ind.en = r.indEn := by
  rw [outputsOf, OutputRow.mk.injEq]

/-- A state with the outputs of another keeps its row. -/
theorem rowOk_of_eq {s t : State} (h : RowOk s) (hout : outputsOf t = outputsOf s) (hrun : t.run = s.run)
    (hbus : busOk t.bus = true) : RowOk t :=
  ⟨by rw [hout, hrun, h.1], hbus⟩

theorem ind_en_evalInd (s : State) : (evalInd s).ind.en = s.ind.en := by
  unfold evalInd
  split
  · rfl
  · split
    · cases hcs : s.chgState <;> rfl
    · unfold indStepOnce
      cases hmode : s.ind.mode <;> dsimp only <;> split <;> rfl

/-- Every run state but Sleep has the auxiliary rail on and the indicator enabled. -/
theorem outputTable_awake {r : RunState} (h : r ≠ .sleep) :
    (outputTable r).auxRail = true ∧ (outputTable r).indEn = true := by
  cases r with
  | sleep => exact absurd rfl h
  | wake | charge | wait | power | powerOff => exact ⟨rfl, rfl⟩

/-- The evaluations but the sequencer's leave the row alone. -/
theorem rowOk_evalConsumer_of_ne {c : Consumer} (hc : c ≠ .run) (p : Pins) {s : State} (h : RowOk s) :
    RowOk (evalConsumer c p s) := by
  cases c with
  | run => exact absurd rfl hc
  | ps => rw [evalConsumer, evalPs_frame]; exact h
  | rtc => rw [evalConsumer, evalRtc_frame]; exact h
  | dio => rw [evalConsumer, evalDio_frame]; exact h
  | ind =>
    rw [evalConsumer, evalInd_frame]
    refine rowOk_of_eq h ?_ rfl h.2
    rw [outputsOf, ind_en_evalInd, outputsOf]

/-- The sequencer never leaves Sleep (R278). -/
theorem nextRun_sleep {s : State} (h : s.run = .sleep) : nextRun s = .sleep := by
  unfold nextRun
  rw [h]

/-- Every transition brings the row of the state entered: its entry action assigns what the row left behind does not
share with it. -/
theorem rowOk_of_seqMove {s t : State} (h : RowOk s) (hmove : SeqMove s t) : RowOk t := by
  obtain ⟨hout, hbus⟩ := h
  obtain ⟨hmain, haux, hbl, hmode, hind⟩ := (outputsOf_eq_iff s _).mp hout
  have hawake : nextRun s ≠ .sleep → s.auxRail = true ∧ s.ind.en = true := fun hne => by
    obtain ⟨h1, h2⟩ := outputTable_awake fun e => hne (nextRun_sleep e)
    exact ⟨haux.trans h1, hind.trans h2⟩
  cases hmove with
  | stay hu => rw [hu.frame]; exact ⟨hout, hbus⟩
  | toCharge hu hleave hnext =>
    obtain ⟨haux, hind⟩ := hawake (hnext ▸ nofun)
    rw [goCharge_eq, hu.frame]
    exact ⟨(outputsOf_eq_iff _ _).mpr ⟨rfl, haux, rfl, rfl, hind⟩, busOk_of_idle s.bus .suspended _⟩
  | toWait hrun hnext =>
    rw [hrun] at haux hmode hind
    exact ⟨(outputsOf_eq_iff _ _).mpr ⟨rfl, haux, rfl, hmode, hind⟩, hbus⟩
  | toPower hrun hnext =>
    obtain ⟨haux, hind⟩ := hawake (hnext ▸ nofun)
    exact ⟨(outputsOf_eq_iff _ _).mpr ⟨rfl, haux, rfl, rfl, hind⟩, busOk_of_idle s.bus .active s.bus.ptr⟩
  | waitToPower hrun hnext =>
    obtain ⟨haux, hind⟩ := hawake (hnext ▸ nofun)
    exact ⟨(outputsOf_eq_iff _ _).mpr ⟨rfl, haux, rfl, rfl, hind⟩, busOk_of_idle s.bus .active s.bus.ptr⟩
  | toPowerOff hrun hpress hnext =>
    rw [hrun] at haux hmode hind
    exact ⟨(outputsOf_eq_iff _ _).mpr ⟨rfl, haux, rfl, hmode, hind⟩, hbus⟩
  | toSleep hu hleave hnext =>
    rw [goSleep_eq]
    exact ⟨rfl, busOk_of_idle _ .disabled _⟩

theorem rowOk_evalConsumer (c : Consumer) (p : Pins) {s : State} (h : RowOk s) : RowOk (evalConsumer c p s) := by
  by_cases hc : c = .run
  · subst hc
    exact rowOk_of_seqMove h (evalRun_move s)
  · exact rowOk_evalConsumer_of_ne hc p h

/-! ## The steps of an agent -/

theorem powerOk_of_frame {s t : State} (h : powerOk s = true) (hrow : RowOk t) (hrun : t.run = s.run)
    (hhalt : t.halted = s.halted) : powerOk t = true := by
  rw [powerOk_iff] at h ⊢
  exact ⟨hrow, by rw [hhalt, hrun, h.2]⟩

/-- A bus event leaves the outputs, and the bus coherent. -/
theorem powerOk_of_wire {s : State} (e : WireEvent) (h : powerOk s = true) : powerOk (service e s) = true := by
  obtain ⟨⟨hout, hbus⟩, -⟩ := (powerOk_iff s).mp h
  have hok : busOk (service e s).bus = true :=
    service_keeps_bus (P := fun b => busOk b = true) (fun _ _ hm hmove => hmove.busOk hm) hbus e
  have hmode := (mode_hgRun_of_wire (s := s) e).1
  refine powerOk_of_frame h (rowOk_of_eq ⟨hout, hbus⟩ ?_ (congrArg State.run (service_frame s e) :) hok)
    (congrArg State.run (service_frame s e) :) (congrArg State.halted (service_frame s e) :)
  rw [outputsOf, hmode, service_frame, outputsOf]

theorem powerOk_of_host {s : State} (es : List WireEvent) (h : powerOk s = true) : powerOk (transact es s) = true := by
  obtain ⟨⟨hout, hbus⟩, -⟩ := (powerOk_iff s).mp h
  have hok : busOk (transact es s).bus = true :=
    transact_keeps_bus (P := fun b => busOk b = true) (fun _ _ hm hmove => hmove.busOk hm) hbus es
  have hmode := (mode_hgRun_of_host (s := s) es).1
  refine powerOk_of_frame h (rowOk_of_eq ⟨hout, hbus⟩ ?_ (congrArg State.run (transact_frame s es) :) hok)
    (congrArg State.run (transact_frame s es) :) (congrArg State.halted (transact_frame s es) :)
  rw [outputsOf, hmode, transact_frame, outputsOf]

/-- The loop's move halts exactly where the evaluation before it left Sleep (R191). -/
theorem powerOk_advanceLoop {s : State} (i : Consumer) (hrun : s.halted = false) (h : RowOk s) :
    powerOk (advanceLoop i s) = true := by
  rw [advanceLoop_of_running i hrun, powerOk_iff]
  exact ⟨h, rfl⟩

theorem powerOk_loopStep {s : State} (p : Pins) (h : powerOk s = true) : powerOk (loopStep p s) = true := by
  obtain ⟨hrow, -⟩ := (powerOk_iff s).mp h
  rcases loopStep_cases p s with e | ⟨hrun, u, e, rfl | ⟨-, -, rfl⟩⟩ <;> rw [e]
  · exact h
  · exact powerOk_advanceLoop _ hrun hrow
  · exact powerOk_advanceLoop _ ((evalConsumer_halted _ _ _).trans hrun)
      (rowOk_evalConsumer s.loopPos p (s := { s with wdtCnt := _, sched := _ }) hrow)

theorem powerOk_powerOnReset (p : Pins) (s : State) : powerOk (powerOnReset p s) = true := rfl

/-- A wake-up leaves Sleep, whose row and Wake's differ in the auxiliary rail and the indicator alone. -/
theorem powerOk_wakeUp {s : State} (p : Pins) (h : powerOk s = true) : powerOk (wakeUp p s) = true := by
  rcases wakeUp_cases p s with ⟨hhalt, e⟩ | ⟨-, e⟩ <;> rw [e]
  · obtain ⟨⟨hout, hbus⟩, hhalted⟩ := (powerOk_iff s).mp h
    have hsleep : s.run = .sleep := by simpa [hhalt] using hhalted
    rw [hsleep] at hout
    obtain ⟨hmain, -, hbl, hmode, -⟩ := (outputsOf_eq_iff s _).mp hout
    exact (powerOk_iff _).mpr ⟨⟨(outputsOf_eq_iff _ _).mpr ⟨hmain, rfl, hbl, hmode, rfl⟩, hbus⟩, rfl⟩
  · exact h

theorem powerOk_of_effect {s t : State} {i : Instr} (heffect : Effect s i t) (hi : i.isAgentStep = true)
    (h : powerOk s = true) : powerOk t = true := by
  cases heffect with
  | wire e => exact powerOk_of_wire e h
  | host es => exact powerOk_of_host es h
  | access p acc hpart => exact absurd (hpart.symm.trans hi) nofun
  | statusFields | dinFields | suspend | resume | shutdown | evalRtcHeld => exact absurd hi Bool.false_ne_true
  | eval c => cases c <;> exact absurd hi Bool.false_ne_true
  | hangguard => rw [hangGuard_of_busOk ((powerOk_iff s).mp h).1.2]; exact h
  | tick => rw [oneTick_frame]; exact h
  | loopStep p => exact powerOk_loopStep p h
  | wdtExpire p =>
    rcases watchdogExpire_cases p s with e | e <;> rw [e]
    · exact powerOk_powerOnReset p s
    · exact h
  | second => rw [oneSecond_frame]; exact h
  | sample ch v => rw [sampleResult_frame]; exact h
  | powerOn p => exact powerOk_powerOnReset p s
  | wakeup p => exact powerOk_wakeUp p h

/-- A step whose event decodes is that instruction's, run with its bytes taken off. -/
theorem effect_of_step {s t : State} {i : Instr} {rest : List Byte} (hdec : decode s.ctx s.inbox = .ok (i, rest))
    (hstep : step s = .next t) : Effect (s.take rest) i t := by
  rw [step, fetchEvent, hdec] at hstep
  exact effect_of_exec hstep

/-- Settles O7: the operation of the decoded event keeps the row, the coherence and the halt. -/
theorem agentStepsKeepPowerTable : Obligations.AgentStepsKeepPowerTable := by
  unfold Obligations.AgentStepsKeepPowerTable
  intro s t i rest hdec hi h hstep
  exact powerOk_of_effect (effect_of_step hdec hstep) hi (s := s.take rest) h

end Sys2Proof.Machine
end

section
/-! The tick, the watchdog, and the events that are not enabled: O36, O39 and O40. -/

namespace Sys2Proof.Machine

/-! ## The decimators of one tick, consumer by consumer -/

variable {c : Config} {j : Consumer}

theorem foldl_clockConsumer_sub_ms (is : List Consumer) (sc : SchedState) :
    (is.foldl (fun sc i => clockConsumer c i sc) sc).sub = sc.sub ∧
      (is.foldl (fun sc i => clockConsumer c i sc) sc).ms = sc.ms := by
  induction is generalizing sc with
  | nil => exact ⟨rfl, rfl⟩
  | cons i is ih =>
    obtain ⟨-, -, hsub, hms⟩ := clockConsumer_get c i i sc
    obtain ⟨ihsub, ihms⟩ := ih (clockConsumer c i sc)
    exact ⟨ihsub.trans hsub, ihms.trans hms⟩

/-- A run of decimators leaves a consumer alone that it does not name. -/
theorem foldl_clockConsumer_of_notMem {is : List Consumer} (hj : j ∉ is) (sc : SchedState) :
    (is.foldl (fun sc i => clockConsumer c i sc) sc).flag.get j = sc.flag.get j ∧
      (is.foldl (fun sc i => clockConsumer c i sc) sc).dec.get j = sc.dec.get j := by
  induction is generalizing sc with
  | nil => exact ⟨rfl, rfl⟩
  | cons i is ih =>
    obtain ⟨hne, hrest⟩ := not_or.mp (mt List.mem_cons.mpr hj)
    obtain ⟨hflag, hdec, -, -⟩ := clockConsumer_get c i j sc
    rw [if_neg hne] at hflag
    rw [if_neg fun h => hne h.1] at hdec
    obtain ⟨ihflag, ihdec⟩ := ih hrest (clockConsumer c i sc)
    exact ⟨ihflag.trans hflag, ihdec.trans hdec⟩

/-- A run of decimators that names a consumer once clocks it once (R183). -/
theorem foldl_clockConsumer_of_mem {is : List Consumer} (hnodup : is.Nodup) (hj : j ∈ is) (sc : SchedState) :
    (is.foldl (fun sc i => clockConsumer c i sc) sc).flag.get j =
        (sc.flag.get j || (decide (sc.sub = c.phase.get j) && decide (sc.dec.get j = 0))) ∧
      (is.foldl (fun sc i => clockConsumer c i sc) sc).dec.get j =
        if sc.sub = c.phase.get j then if sc.dec.get j = 0 then c.period.get j - 1 else sc.dec.get j - 1
        else sc.dec.get j := by
  induction is generalizing sc with
  | nil => exact absurd hj List.not_mem_nil
  | cons i is ih =>
    obtain ⟨hfresh, hrest⟩ := List.nodup_cons.mp hnodup
    obtain ⟨hflag, hdec, hsub, -⟩ := clockConsumer_get c i j sc
    by_cases hij : j = i
    · subst hij
      obtain ⟨hf, hd⟩ := foldl_clockConsumer_of_notMem (c := c) hfresh (clockConsumer c j sc)
      rw [List.foldl_cons, hf, hd, hflag, hdec, if_pos rfl]
      simp only [true_and, and_self]
    · obtain ⟨hf, hd⟩ := ih hrest ((List.mem_cons.mp hj).resolve_left hij) (clockConsumer c i sc)
      rw [if_neg hij] at hflag
      rw [if_neg fun h => hij h.1] at hdec
      rw [List.foldl_cons, hf, hd, hsub, hflag, hdec]
      exact ⟨rfl, rfl⟩

/-- The scheduler after a tick, consumer by consumer (R181 to R183). -/
theorem schedTick_get (c : Config) (sc : SchedState) :
    (schedTick c sc).sub = (sc.sub + 1) % c.ticksPerMs ∧
      (schedTick c sc).ms = (if (sc.sub + 1) % c.ticksPerMs = 0 then sc.ms + 1#32 else sc.ms) ∧
      ∀ i, (schedTick c sc).flag.get i =
          (sc.flag.get i || decide ((sc.sub + 1) % c.ticksPerMs = c.phase.get i ∧ sc.dec.get i = 0)) ∧
        (schedTick c sc).dec.get i =
          if (sc.sub + 1) % c.ticksPerMs = c.phase.get i then
            if sc.dec.get i = 0 then c.period.get i - 1 else sc.dec.get i - 1
          else sc.dec.get i := by
  rw [schedTick_eq_foldl]
  obtain ⟨hsub, hms⟩ := foldl_clockConsumer_sub_ms (c := c) consumers (advanceSub c sc)
  refine ⟨hsub, hms, fun i => ?_⟩
  obtain ⟨hflag, hdec⟩ :=
    foldl_clockConsumer_of_mem (c := c) (show consumers.Nodup by decide) (mem_consumers i) (advanceSub c sc)
  exact ⟨by rw [hflag, Bool.decide_and]; rfl, hdec⟩

theorem oneTick_of_running {s : State} (h : s.halted = false) :
    oneTick s = { s with sched := schedTick s.cfg s.sched, wdtCnt := min (s.wdtCnt + 1) s.cfg.wdtTicks } :=
  if_neg (by simp [h])

/-- Settles O36: the scheduler consumer by consumer, and the watchdog's count. -/
theorem tickDecimatesFlags : Obligations.TickDecimatesFlags := by
  unfold Obligations.TickDecimatesFlags
  intro s h
  obtain ⟨hsub, hms, hget⟩ := schedTick_get s.cfg s.sched
  refine ⟨_, congrArg Host.Outcome.next (oneTick_of_running h), hsub, ?_, fun i => ?_, fun i => ?_, rfl, rfl⟩
  · rw [hsub, hms]
  · rw [hsub, (hget i).1]
  · rw [hsub, (hget i).2]

/-! ## The watchdog -/

/-- Ticks with no other step between them count the watchdog up to its limit, and change the scheduler else. -/
theorem runs_ticks {s : State} (n : Nat) (hrun : s.halted = false) (hcnt : s.wdtCnt ≤ s.cfg.wdtTicks) :
    ∃ sc, runs (List.replicate n .tick) s =
      some { s with sched := sc, wdtCnt := min (s.wdtCnt + n) s.cfg.wdtTicks } := by
  induction n generalizing s with
  | zero => exact ⟨s.sched, by rw [Nat.add_zero, Nat.min_eq_left hcnt]; rfl⟩
  | succ n ih =>
    obtain ⟨sc, hsc⟩ := ih (s := oneTick s) (by rw [oneTick_of_running hrun]; exact hrun)
      (by rw [oneTick_of_running hrun]; exact Nat.min_le_right _ _)
    refine ⟨sc, hsc.trans ?_⟩
    have hmin :
        min (min (s.wdtCnt + 1) s.cfg.wdtTicks + n) s.cfg.wdtTicks = min (s.wdtCnt + (n + 1)) s.cfg.wdtTicks := by
      omega
    rw [oneTick_of_running hrun, hmin]

theorem watchdogExpire_of_enabled {s : State} (p : Pins) (hrun : s.halted = false) (hcnt : s.wdtCnt = s.cfg.wdtTicks) :
    watchdogExpire p s = raiseWatchdogReset p s :=
  if_pos (by simp [hrun, hcnt])

theorem watchdogExpire_of_disabled {s : State} (p : Pins) (h : s.halted = true ∨ s.wdtCnt ≠ s.cfg.wdtTicks) :
    watchdogExpire p s = s :=
  if_neg (by simpa [or_iff_not_imp_left] using h)

/-- The expiry resets the block as `POWER_ON` does, but for the seconds counter and the draw it took. -/
theorem exec_wdtExpire_of_enabled {s : State} (p : Pins) (hrun : s.halted = false) (hcnt : s.wdtCnt = s.cfg.wdtTicks) :
    ∃ c d, exec (.wdtExpire p) s = .next { powerOnReset p s with
      rtc := { (powerOnReset p s).rtc with count := c }, draws := d } :=
  ⟨Config.freeCount (powerOnReset p s).draws, (powerOnReset p s).draws + 1,
    congrArg Host.Outcome.next ((watchdogExpire_of_enabled p hrun hcnt).trans (raiseWatchdogReset_eq s p))⟩

/-- Settles O40: the ticks bring the count to its limit, and there the watchdog is enabled. -/
theorem unarmedWatchdogResetsBlock : Obligations.UnarmedWatchdogResetsBlock := by
  unfold Obligations.UnarmedWatchdogResetsBlock
  intro p n s hrun hcnt hn
  obtain ⟨sc, hticks⟩ := runs_ticks n hrun hcnt
  have hfull : min (s.wdtCnt + n) s.cfg.wdtTicks = s.cfg.wdtTicks := Nat.min_eq_right hn
  exact ⟨_, _, hticks, hfull, rfl, exec_wdtExpire_of_enabled p hrun hfull⟩

/-! ## Events that are not enabled -/

theorem oneTick_of_halted {s : State} (h : s.halted = true) : oneTick s = s := if_pos h

theorem loopStep_of_stopped {s : State} (p : Pins) (h : s.halted = true ∨ s.loopHeld = true) : loopStep p s = s :=
  if_pos (by simpa using h)

theorem wakeUp_of_running (p : Pins) {s : State} (h : s.halted = false) : wakeUp p s = s := if_neg (by simp [h])

/-- Settles O39: each operation tests what enables it and answers the state as it was where the test fails. -/
theorem disabledEventsChangeNothing : Obligations.DisabledEventsChangeNothing := by
  unfold Obligations.DisabledEventsChangeNothing
  intro p s
  refine ⟨fun h => ⟨?_, ?_, ?_⟩, fun hpos hflag hopen => ?_, fun hopen => ?_, fun h => ?_, fun h => ?_⟩
  · exact congrArg Host.Outcome.next (oneTick_of_halted h)
  · exact congrArg Host.Outcome.next (loopStep_of_stopped p (.inl h))
  · exact congrArg Host.Outcome.next (watchdogExpire_of_disabled p (.inl h))
  · have hheld : s.loopHeld = true := by simp [State.loopHeld, hpos, hflag, hopen]
    exact congrArg Host.Outcome.next (loopStep_of_stopped p (.inr hheld))
  · exact congrArg Host.Outcome.next (if_pos hopen)
  · exact congrArg Host.Outcome.next (watchdogExpire_of_disabled p (.inr h))
  · exact congrArg Host.Outcome.next (wakeUp_of_running p h)

end Sys2Proof.Machine
end

section
/-! The digital I/O monitor's evaluation, O43, O44 and O45, and the indicator's, O50. -/

namespace Sys2Proof.Machine

/-! ## Press timing -/

/-- The press counter after an evaluation with the accepted button level `deb`: loaded by a down event, counted down
while held, frozen while released (42_digital_io.md R205, R206). -/
def pressCount (c : Config) (deb : Bool) (d : DioState) : Nat :=
  if deb then (if d.btnLast then d.pressCnt - 1 else c.longPressTicks) else d.pressCnt

/-- The latch of the short press as the timing leaves it: cleared by a down event (42_digital_io.md R205). -/
def pressLatch (deb : Bool) (d : DioState) : Bool := d.shortLatched && (!deb || d.btnLast)

theorem dioPress_eq (s : State) :
    dioPress s = { s with
      dio := { s.dio with
        btnLast := s.dio.btn.deb, pressCnt := pressCount s.cfg s.dio.btn.deb s.dio
        shortLatched := pressLatch s.dio.btn.deb s.dio }
      longPress := s.longPress || (s.dio.btn.deb && s.dio.btnLast && s.dio.pressCnt == 1) } := by
  unfold dioPress pressCount pressLatch
  cases hdeb : s.dio.btn.deb with
  | false => simp
  | true =>
    cases hlast : s.dio.btnLast with
    | false => simp
    | true =>
      by_cases hcnt : 0 < s.dio.pressCnt
      · have hone : (s.dio.pressCnt - 1 == 0) = (s.dio.pressCnt == 1) := by
          rw [Bool.eq_iff_iff, beq_iff_eq, beq_iff_eq]
          omega
        simp [hcnt, hone]
      · have hzero : s.dio.pressCnt = 0 := by omega
        simp [hzero]

/-! ## The short press -/

/-- The evaluation is the first of its press at which the time down reaches `PRESS` (42_digital_io.md R207). -/
def reachesShort (s : State) : Bool :=
  s.dio.btn.deb && !s.dio.shortLatched && decide ((s.slot 17).toNat ≤ s.elapsed)

theorem dioShort_eq (s : State) :
    dioShort s =
      { (if reachesShort s then s.setShort true else s) with
        dio := { s.dio with shortLatched := s.dio.shortLatched || reachesShort s } } := by
  unfold dioShort
  change (if reachesShort s = true then _ else _) = _
  cases h : reachesShort s with
  | true => rw [Bool.or_true]; rfl
  | false => rw [Bool.or_false]; rfl

theorem slot_dioShort (s : State) (k : Fin 32) :
    (dioShort s).slot k = if k = 2 ∧ reachesShort s then putBit (s.slot 2) s.cfg.stShortBit true else s.slot k := by
  rw [dioShort_eq]
  cases reachesShort s with
  | true => exact (slot_setShort s true k).trans (by simp)
  | false => simp

/-! ## One evaluation -/

/-- The monitor before the short-press threshold. -/
def dioTimed (p : Pins) (s : State) : State := dioPress (dioSample p s)

theorem dioTimed_eq (p : Pins) (s : State) :
    dioTimed p s = { s with
      dio := {
        btn := s.dio.btn.sample p.btn, chg0 := s.dio.chg0.sample p.chg0, chg1 := s.dio.chg1.sample p.chg1
        card := p.card, btnLast := (s.dio.btn.sample p.btn).deb
        pressCnt := pressCount s.cfg (s.dio.btn.sample p.btn).deb s.dio
        shortLatched := pressLatch (s.dio.btn.sample p.btn).deb s.dio }
      longPress := s.longPress || ((s.dio.btn.sample p.btn).deb && s.dio.btnLast && s.dio.pressCnt == 1) } :=
  dioPress_eq (dioSample p s)

/-- Whether an evaluation is the first of its press at which the time down reaches `PRESS` (42_digital_io.md R207). -/
def shortAt (p : Pins) (s : State) : Bool :=
  (s.dio.btn.sample p.btn).deb && !pressLatch (s.dio.btn.sample p.btn).deb s.dio &&
    decide ((s.slot 17).toNat ≤ s.cfg.longPressTicks - pressCount s.cfg (s.dio.btn.sample p.btn).deb s.dio)

theorem reachesShort_dioTimed (p : Pins) (s : State) : reachesShort (dioTimed p s) = shortAt p s := by
  rw [dioTimed_eq]
  rfl

theorem dio_evalDio (p : Pins) (s : State) :
    (evalDio p s).dio = {
      btn := s.dio.btn.sample p.btn, chg0 := s.dio.chg0.sample p.chg0, chg1 := s.dio.chg1.sample p.chg1
      card := p.card, btnLast := (s.dio.btn.sample p.btn).deb
      pressCnt := pressCount s.cfg (s.dio.btn.sample p.btn).deb s.dio
      shortLatched := pressLatch (s.dio.btn.sample p.btn).deb s.dio || shortAt p s } := by
  change (dioShort (dioTimed p s)).dio = _
  rw [dioShort_eq, reachesShort_dioTimed, dioTimed_eq]

theorem longPress_evalDio (p : Pins) (s : State) :
    (evalDio p s).longPress =
      (s.longPress || ((s.dio.btn.sample p.btn).deb && s.dio.btnLast && s.dio.pressCnt == 1)) := by
  change (dioShort (dioTimed p s)).longPress = _
  rw [dioShort_frame, dioTimed_eq]

/-- The evaluation publishes `DIN`, sets the `short` bit where the short press is reached, and writes no other slot. -/
theorem slot_evalDio (p : Pins) (s : State) (k : Fin 32) :
    (evalDio p s).slot k =
      if k = 3 then (evalDio p s).dinPack
      else if k = 2 ∧ shortAt p s then putBit (s.slot 2) s.cfg.stShortBit true
      else s.slot k := by
  have hslots : ∀ j, (dioTimed p s).slot j = s.slot j := fun j => by rw [dioTimed_eq]; rfl
  have hcfg : (dioTimed p s).cfg = s.cfg := by rw [dioTimed_eq]
  have hpub : (evalDio p s).slot k =
      if k = 3 then (evalDio p s).dinPack else (dioShort (dioTimed p s)).slot k := slot_setSlot _ 3 k _
  rw [hpub, slot_dioShort, hslots, hslots, hcfg, reachesShort_dioTimed]

/-- Settles O43: the lines as sampled, the slots by what the evaluation writes, the rest by its frame. -/
theorem debounceNeedsTwoSamples : Obligations.DebounceNeedsTwoSamples := by
  unfold Obligations.DebounceNeedsTwoSamples
  intro p s
  have hcfg : (evalDio p s).cfg = s.cfg := (congrArg State.cfg (evalDio_frame s p) :)
  have hdio := dio_evalDio p s
  refine ⟨_, rfl, congrArg DioState.btn hdio, congrArg DioState.chg0 hdio, congrArg DioState.chg1 hdio,
    congrArg DioState.card hdio, by rw [hdio], ?pub, fun k h2 h3 => ?kept, evalDio_frame s p⟩
  case pub => rw [slot_evalDio, if_pos rfl, State.dinPack, hcfg]
  case kept => rw [slot_evalDio, if_neg h3, if_neg fun h => h2 h.1]

/-- The latch is new at an evaluation that reaches the threshold, and then no earlier evaluation of the press had set
it. -/
theorem latched_anew_iff (latched last deb reached : Bool) :
    (deb && !(latched && (!deb || last)) && reached) = true ↔
      (latched && (!deb || last) || deb && !(latched && (!deb || last)) && reached) = true ∧
        (latched = false ∨ last = false ∧ deb = true) := by
  decide +revert

/-- A bit of a byte in which one bit is set under a condition. -/
theorem getLsbD_putBit_if (v : Byte) (i : Nat) {n : Nat} (hn : n < 8) (b : Bool) :
    (if b = true then putBit v i true else v).getLsbD n = if n = i ∧ b = true then true else v.getLsbD n := by
  cases b with
  | false => simp
  | true =>
    rw [if_pos rfl, getLsbD_putBit]
    exact if_congr (by simp [hn]) rfl rfl

/-- Settles O44: the counter, the flag and the latch by the three cases of the button, the `short` bit by the
evaluation that reaches the threshold. -/
theorem pressTimingRule : Obligations.PressTimingRule := by
  unfold Obligations.PressTimingRule
  intro p s
  refine ⟨_, rfl, ?_⟩
  rw [slot_evalDio, if_neg (by decide), dio_evalDio, longPress_evalDio]
  unfold shortAt
  dsimp only
  generalize (s.dio.btn.sample p.btn).deb = deb
  refine ⟨fun hlast hdown => ?down, fun hlast hheld => ?held, fun hup => ?up, fun n hn => ?status⟩
  case down =>
    subst hdown
    simp [pressCount, pressLatch, hlast, ← BitVec.toNat_inj]
  case held =>
    subst hheld
    cases hlatched : s.dio.shortLatched <;> simp [pressCount, pressLatch, hlast, hlatched]
  case up =>
    subst hup
    simp [pressCount, pressLatch]
  case status =>
    simp only [pressLatch, ← latched_anew_iff, true_and]
    exact getLsbD_putBit_if _ _ hn _

/-! ## A run of evaluations with the button held -/

/-- One evaluation of a button that is down and was accepted as down: the count goes down by one, and the flag is set
with the count at 0 (42_digital_io.md R206). -/
theorem evalDio_of_held {p : Pins} {s : State} (hp : p.btn = true) (hbtn : s.dio.btn = ⟨true, true⟩)
    (hlast : s.dio.btnLast = true) :
    (evalDio p s).dio.btn = ⟨true, true⟩ ∧ (evalDio p s).dio.btnLast = true ∧
      (evalDio p s).dio.pressCnt = s.dio.pressCnt - 1 ∧
      (evalDio p s).longPress = (s.longPress || s.dio.pressCnt == 1) := by
  rw [dio_evalDio, longPress_evalDio, hbtn, hp, hlast]
  exact ⟨rfl, rfl, by simp [pressCount, Line.sample, hlast], rfl⟩

/-- Evaluations of a held button, as many as the count allows, count it down; the flag is set where it is 0. -/
theorem runs_evalDio_of_held {ps : List Pins} {s : State} (hps : ∀ p ∈ ps, p.btn = true)
    (hbtn : s.dio.btn = ⟨true, true⟩) (hlast : s.dio.btnLast = true) (hflag : s.longPress = (s.dio.pressCnt == 0))
    (hlen : ps.length ≤ s.dio.pressCnt) :
    ∃ t, runs (ps.map .evalDio) s = some t ∧ t.dio.pressCnt = s.dio.pressCnt - ps.length ∧
      t.longPress = (t.dio.pressCnt == 0) := by
  induction ps generalizing s with
  | nil => exact ⟨s, rfl, rfl, hflag⟩
  | cons p ps ih =>
    rw [List.length_cons] at hlen
    obtain ⟨hbtn', hlast', hcnt, hlong⟩ := evalDio_of_held (hps p List.mem_cons_self) hbtn hlast
    have hflag' : (evalDio p s).longPress = ((evalDio p s).dio.pressCnt == 0) := by
      rw [hlong, hcnt, hflag, Bool.eq_iff_iff]
      simp
      omega
    obtain ⟨t, hrun, htcnt, htflag⟩ :=
      ih (fun q hq => hps q (List.mem_cons_of_mem p hq)) hbtn' hlast' hflag' (by omega)
    refine ⟨t, hrun, ?_, htflag⟩
    rw [htcnt, hcnt, List.length_cons]
    omega

/-- Settles O45: the run counts down from the threshold, which is not 0. -/
theorem longPressAfterThreshold : Obligations.LongPressAfterThreshold := by
  unfold Obligations.LongPressAfterThreshold
  intro ps s hwf hps hbtn hlast hcnt hflag hlen
  have hpos : 1 ≤ s.cfg.longPressTicks := by
    simp only [Config.wf, Config.wfCounters, Bool.and_eq_true, decide_eq_true_eq] at hwf
    omega
  obtain ⟨t, hrun, htcnt, htflag⟩ := runs_evalDio_of_held hps hbtn hlast
    (by rw [hflag, hcnt, eq_comm, beq_eq_false_iff_ne]; omega) (by rw [hcnt]; exact hlen)
  rw [hcnt] at htcnt
  refine ⟨t, hrun, ?_, htcnt⟩
  rw [htflag, htcnt, Bool.eq_iff_iff, beq_iff_eq, decide_eq_true_eq]
  omega

/-! ## The indicator -/

theorem evalInd_of_disabled {s : State} (hen : s.ind.en = false) : evalInd s = s := by
  simp [evalInd, hen]

/-- Another charge state than the selected one selects its animation (R244). -/
theorem ind_evalInd_of_ne {s : State} (hen : s.ind.en = true) (hne : s.chgState ≠ s.ind.sel) :
    (evalInd s).ind = indSelect s.cfg s.chgState s.ind := by
  simp [evalInd, hen, hne]

/-- The selected charge state steps its animation (R245). -/
theorem ind_evalInd_of_eq {s : State} (hen : s.ind.en = true) (heq : s.chgState = s.ind.sel) :
    (evalInd s).ind = indStepOnce s.cfg s.ind := by
  simp [evalInd, hen, heq]

theorem indSelect_en_sel (c : Config) (cs : ChgState) (i : IndState) :
    (indSelect c cs i).en = i.en ∧ (indSelect c cs i).sel = cs := by
  cases cs <;> exact ⟨rfl, rfl⟩

theorem indStepOnce_en_sel (c : Config) (i : IndState) :
    (indStepOnce c i).en = i.en ∧ (indStepOnce c i).sel = i.sel := by
  unfold indStepOnce
  cases i.mode with
  | off | solid | fadeUp | fadeDown => exact ⟨rfl, rfl⟩
  | blinkOn | blinkOff => dsimp only; split <;> exact ⟨rfl, rfl⟩

/-- The pulse on integers: a level saturates at the extremes (R247, R248). -/
theorem toNat_fadeUpLevel (c : Config) (v : Byte) :
    (fadeUpLevel c v).toNat = min (v.toNat + c.indStep) c.indMax.toNat := by
  have hmax := c.indMax.isLt
  rw [fadeUpLevel, BitVec.toNat_ofNat]
  omega

theorem toNat_fadeDownLevel (c : Config) (v : Byte) :
    ((fadeDownLevel c v).toNat : Int) = max ((v.toNat : Int) - c.indStep) c.indMin.toNat := by
  have hmin := c.indMin.isLt
  have hv := v.isLt
  rw [fadeDownLevel, BitVec.toNat_ofNat]
  omega

theorem indStepOnce_of_fadeUp (c : Config) {i : IndState} (hmode : i.mode = .fadeUp) :
    indStepOnce c i = { i with
      level := fadeUpLevel c i.level
      mode := if fadeUpLevel c i.level = c.indMax then .fadeDown else .fadeUp } := by
  rw [indStepOnce, hmode]

theorem indStepOnce_of_fadeDown (c : Config) {i : IndState} (hmode : i.mode = .fadeDown) :
    indStepOnce c i = { i with
      level := fadeDownLevel c i.level
      mode := if fadeDownLevel c i.level = c.indMin then .fadeUp else .fadeDown } := by
  rw [indStepOnce, hmode]

/-- A blink that has not run out counts down (R249, R250). -/
theorem indStepOnce_of_blinking (c : Config) {i : IndState} (hmode : i.mode = .blinkOn ∨ i.mode = .blinkOff)
    (hcnt : 1 < i.cnt) : indStepOnce c i = { i with cnt := i.cnt - 1 } := by
  have hne : i.cnt - 1 ≠ 0 := by omega
  rcases hmode with h | h <;> simp [indStepOnce, h, hne]

/-- Settles O50: no evaluation where disabled, a selection for another charge state, and else one step by the mode. -/
theorem indicatorEvaluation : Obligations.IndicatorEvaluation := by
  unfold Obligations.IndicatorEvaluation
  intro s
  refine ⟨fun hen => congrArg Host.Outcome.next (evalInd_of_disabled hen), _, rfl, evalInd_frame s,
    fun hen hne => ?select, fun hen heq => ?step⟩
  case select =>
    rw [ind_evalInd_of_ne hen hne]
    obtain ⟨hen', hsel⟩ := indSelect_en_sel s.cfg s.chgState s.ind
    refine ⟨hen'.trans hen, hsel, fun h => ?_, fun h => ?_, fun h => ?_, fun h => ?_⟩ <;> rw [h] <;>
      exact ⟨rfl, rfl, rfl⟩
  case step =>
    rw [ind_evalInd_of_eq hen heq]
    obtain ⟨hen', hsel⟩ := indStepOnce_en_sel s.cfg s.ind
    refine ⟨hen'.trans hen, hsel, fun h => ?still, fun h => ?up, fun h => ?down,
      fun h hcnt => indStepOnce_of_blinking s.cfg h hcnt, fun h hcnt => ?on, fun h hcnt => ?off⟩
    case still => rcases h with h | h <;> simp only [indStepOnce, h]
    case up =>
      rw [indStepOnce_of_fadeUp s.cfg h]
      exact ⟨toNat_fadeUpLevel s.cfg _, rfl, rfl⟩
    case down =>
      rw [indStepOnce_of_fadeDown s.cfg h]
      exact ⟨toNat_fadeDownLevel s.cfg _, rfl, rfl⟩
    case on | off => simp [indStepOnce, h, hcnt]

end Sys2Proof.Machine
end

section
/-! The sampler, O54, and the ranges of all counters, O8. -/

namespace Sys2Proof.Machine

/-! ## What a well-formed configuration says of the counters -/

theorem ticksPerMs_pos {c : Config} (hwf : c.wf = true) : 0 < c.ticksPerMs := by
  simp only [Config.wf, Config.wfCounters, Bool.and_eq_true, decide_eq_true_eq] at hwf
  omega

theorem period_pos {c : Config} (hwf : c.wf = true) (i : Consumer) : 0 < c.period.get i := by
  simp only [Config.wf, Config.wfCounters, Bool.and_eq_true, decide_eq_true_eq] at hwf
  cases i <;> simp only [PerConsumer.get] <;> omega

theorem tempDepth_pos {c : Config} (hwf : c.wf = true) : 0 < c.tempDepth := by
  simp only [Config.wf, Config.wfCounters, Bool.and_eq_true, decide_eq_true_eq] at hwf
  omega

theorem emaK_le {c : Config} (hwf : c.wf = true) (j : Fin 4) : c.emaK[j.val] ≤ 15 := by
  simp only [Config.wf, Config.wfCounters, Bool.and_eq_true, List.all_eq_true, decide_eq_true_eq] at hwf
  exact hwf.2.1.2 _ (Vector.mem_toList_iff.mpr (Vector.getElem_mem _))

/-! ## The smoothing filter -/

/-- The accumulator on integers, and that it stays below 2^31 (46_boundary_modules.md R309): what a sample adds is at
most what the shift by at most 15 has taken off at the top of the range. -/
theorem toNat_emaSum {k : Nat} (hk : k ≤ 15) {sum : Word} (hsum : sum.toNat < 2 ^ 31) (v : Half) :
    (emaSum k sum v).toNat = sum.toNat - sum.toNat / 2 ^ k + v.toNat ∧
      sum.toNat - sum.toNat / 2 ^ k + v.toNat < 2 ^ 31 := by
  have hv : v.toNat < 65536 := v.isLt
  have hdrop : sum.toNat / 32768 ≤ sum.toNat / 2 ^ k :=
    Nat.div_le_div_left (Nat.pow_le_pow_right (by decide) hk) (Nat.two_pow_pos k)
  have hle : sum.toNat / 2 ^ k ≤ sum.toNat := Nat.div_le_self _ _
  have hzext : (v.zeroExtend 32).toNat = v.toNat := by
    rw [BitVec.zeroExtend, BitVec.toNat_setWidth]
    omega
  have hshift : (sum >>> k).toNat = sum.toNat / 2 ^ k := by rw [BitVec.toNat_ushiftRight, Nat.shiftRight_eq_div_pow]
  generalize sum.toNat / 2 ^ k = q at *
  rw [emaSum, BitVec.toNat_add, BitVec.toNat_sub, hshift, hzext]
  omega

/-- Settles O54: the accumulator on integers, the two vectors entry by entry, the buffer by its one replaced entry. -/
theorem sampleFiltersAndPublishes : Obligations.SampleFiltersAndPublishes := by
  unfold Obligations.SampleFiltersAndPublishes
  intro s v hwf
  refine ⟨fun j hsum => ?analog, ?temperature⟩
  case analog =>
    obtain ⟨hnat, hlt⟩ := toNat_emaSum (emaK_le hwf j) hsum v
    have hset : (sampleAnalog j v s).filt.sum[j.val] = emaSum s.cfg.emaK[j.val] s.filt.sum[j.val] v :=
      Vector.getElem_set_self _
    refine ⟨_, _, rfl, rfl, (congrArg BitVec.toNat hset).trans hnat, hlt, ?_, fun m hm => ?_, rfl⟩
    · have hshift : emaSum s.cfg.emaK[j.val] s.filt.sum[j.val] v >>> s.cfg.emaK[j.val] =
          BitVec.ofNat 32 ((s.filt.sum[j.val].toNat - s.filt.sum[j.val].toNat / 2 ^ s.cfg.emaK[j.val] + v.toNat) /
            2 ^ s.cfg.emaK[j.val]) := by
        rw [← hnat, ← Nat.shiftRight_eq_div_pow, ← BitVec.toNat_ushiftRight, BitVec.ofNat_toNat, BitVec.setWidth_eq]
      rw [← hshift]
      exact Vector.getElem_set_self _
    · have hne : j.val ≠ m.val := fun e => hm (Fin.ext e.symm)
      exact ⟨Vector.getElem_set_ne j.isLt m.isLt hne, Vector.getElem_set_ne j.isLt m.isLt hne⟩
  case temperature =>
    refine ⟨_, rfl, rfl, fun k => ?_, rfl, rfl, rfl⟩
    change (s.filt.tbuf.set s.filt.tpos v)[k]? = _
    rw [List.getElem?_set]
    by_cases hk : k = s.filt.tpos
    · subst hk
      by_cases hlt : s.filt.tpos < s.filt.tbuf.length <;> simp [hlt]
    · simp [hk, Ne.symm hk]

/-! ## The running sum of the temperature's buffer -/

/-- The sum of a buffer as `tempOk` takes it. -/
def bufferSum (l : List Half) : Word := (l.map (fun v => v.zeroExtend 32)).foldl (fun a v => a + v) 0#32

theorem bufferSum_eq_sum (l : List Half) : bufferSum l = (l.map (fun v => v.zeroExtend 32)).sum :=
  List.sum_eq_foldl.symm

/-- A replaced entry changes the sum by the difference of the two. -/
theorem bufferSum_set {l : List Half} {i : Nat} (hi : i < l.length) (v : Half) :
    bufferSum (l.set i v) = bufferSum l - (l.getD i 0#16).zeroExtend 32 + v.zeroExtend 32 := by
  simp only [bufferSum_eq_sum]
  induction l generalizing i with
  | nil => exact absurd hi (Nat.not_lt_zero i)
  | cons x l ih =>
    cases i with
    | zero =>
      simp only [List.set_cons_zero, List.map_cons, List.sum_cons, List.getD_cons_zero]
      ring
    | succ i =>
      simp only [List.set_cons_succ, List.map_cons, List.sum_cons, List.getD_cons_succ, ih (Nat.lt_of_succ_lt_succ hi)]
      ring

theorem bufferSum_replicate_zero (n : Nat) : bufferSum (List.replicate n 0#16) = 0#32 := by
  rw [bufferSum_eq_sum, List.map_replicate, List.sum_replicate]
  exact smul_zero n

/-! ## The ranges, one by one -/

/-- `countersOk` counter by counter. -/
structure InRange (s : State) : Prop where
  sub : s.sched.sub < s.cfg.ticksPerMs
  dec : ∀ i, s.sched.dec.get i < s.cfg.period.get i
  wdt : s.wdtCnt ≤ s.cfg.wdtTicks
  press : s.dio.pressCnt ≤ s.cfg.longPressTicks
  blink : s.ind.cnt ≤ s.cfg.blinkHalf
  crit : s.critCnt ≤ s.cfg.critTimeout + s.cfg.critGrace
  idx : s.ps.idx ≤ Config.nvMirrorSize
  depth : s.filt.tbuf.length = s.cfg.tempDepth
  pos : s.filt.tpos < s.cfg.tempDepth

theorem decOk_iff (c : Config) (d : PerConsumer Nat) : decOk c d = true ↔ ∀ i, d.get i < c.period.get i := by
  simp only [decOk, Bool.and_eq_true, decide_eq_true_eq]
  refine ⟨fun ⟨⟨⟨⟨hps, hrtc⟩, hdio⟩, hind⟩, hrun⟩ i => ?_, fun h => ⟨⟨⟨⟨h .ps, h .rtc⟩, h .dio⟩, h .ind⟩, h .run⟩⟩
  cases i with
  | ps => exact hps
  | rtc => exact hrtc
  | dio => exact hdio
  | ind => exact hind
  | run => exact hrun

theorem countersOk_iff (s : State) : countersOk s = true ↔ InRange s := by
  simp only [countersOk, Bool.and_eq_true, decide_eq_true_eq, beq_iff_eq, decOk_iff]
  exact ⟨fun ⟨⟨⟨⟨⟨⟨⟨⟨h1, h2⟩, h3⟩, h4⟩, h5⟩, h6⟩, h7⟩, h8⟩, h9⟩ => ⟨h1, h2, h3, h4, h5, h6, h7, h8, h9⟩,
    fun h => ⟨⟨⟨⟨⟨⟨⟨⟨h.sub, h.dec⟩, h.wdt⟩, h.press⟩, h.blink⟩, h.crit⟩, h.idx⟩, h.depth⟩, h.pos⟩⟩

/-- What O8 says of one state. -/
def Ranges (s : State) : Prop := countersOk s = true ∧ tempOk s = true

/-- The running sum in the terms of `bufferSum`. -/
theorem tempOk_iff (s : State) : tempOk s = true ↔ s.filt.tsum = bufferSum s.filt.tbuf := beq_iff_eq

theorem Ranges.inRange {s : State} (h : Ranges s) : InRange s := (countersOk_iff s).mp h.1

theorem ranges_regInvariant : RegInvariant Ranges where
  bus _ _ _ _ h := h
  read p s h := by rw [regRead_frame]; exact h
  write p b s h := by rw [regWrite_frame]; exact h

/-! ## The evaluations -/

theorem idx_evalPs {s : State} (h : s.ps.idx ≤ Config.nvMirrorSize) : (evalPs s).ps.idx ≤ Config.nvMirrorSize := by
  unfold evalPs
  split
  next hw =>
    rw [psWriteBack_eq hw, State.batch]
    dsimp only
    omega
  next =>
    split
    · exact Nat.zero_le _
    · split
      · exact h
      · exact h

theorem cnt_evalInd {s : State} (h : s.ind.cnt ≤ s.cfg.blinkHalf) : (evalInd s).ind.cnt ≤ s.cfg.blinkHalf := by
  cases hen : s.ind.en with
  | false => rw [evalInd_of_disabled hen]; exact h
  | true =>
    by_cases heq : s.chgState = s.ind.sel
    · rw [ind_evalInd_of_eq hen heq, indStepOnce]
      cases s.ind.mode with
      | off | solid | fadeUp | fadeDown => exact h
      | blinkOn | blinkOff =>
        dsimp only
        split
        · exact Nat.le_refl _
        · exact (Nat.sub_le _ _).trans h
    · rw [ind_evalInd_of_ne hen heq]
      cases s.chgState with
      | off | charging | complete => exact h
      | fault => exact Nat.le_refl _

theorem pressCount_le {c : Config} {d : DioState} (deb : Bool) (h : d.pressCnt ≤ c.longPressTicks) :
    pressCount c deb d ≤ c.longPressTicks := by
  unfold pressCount
  split
  · split
    · exact (Nat.sub_le _ _).trans h
    · exact Nat.le_refl _
  · exact h

/-- The count before a transition stays within the limit of R277. -/
theorem Prelude.crit_le {s u : State} (hu : Prelude s u) (h : s.critCnt ≤ s.cfg.critTimeout + s.cfg.critGrace) :
    u.critCnt ≤ s.cfg.critTimeout + s.cfg.critGrace := by
  cases hu with
  | idle => exact h
  | tick =>
    rw [powerTick_frame]
    dsimp only [powerCount, State.critNext]
    split
    · split <;> omega
    · exact Nat.zero_le _

/-- A transition keeps the critical-battery count within its limit and the blink's count as it was. -/
theorem SeqMove.crit_ind {s t : State} (h : SeqMove s t) (hcrit : s.critCnt ≤ s.cfg.critTimeout + s.cfg.critGrace) :
    t.critCnt ≤ s.cfg.critTimeout + s.cfg.critGrace ∧ t.ind.cnt = s.ind.cnt := by
  have hind : ∀ {u : State}, Prelude s u → u.ind = s.ind := fun hu => (congrArg State.ind hu.frame :)
  cases h with
  | stay hu => exact ⟨hu.crit_le hcrit, by rw [hind hu]⟩
  | toCharge hu => rw [goCharge_eq]; exact ⟨hu.crit_le hcrit, by rw [hind hu]⟩
  | toWait | toPowerOff => exact ⟨hcrit, rfl⟩
  | toPower | waitToPower => exact ⟨Nat.zero_le _, rfl⟩
  | toSleep hu => rw [goSleep_eq]; exact ⟨hu.crit_le hcrit, by rw [hind hu]⟩

theorem ranges_evalConsumer (c : Consumer) (p : Pins) {s : State} (h : Ranges s) : Ranges (evalConsumer c p s) := by
  have hr := h.inRange
  cases c with
  | ps =>
    rw [evalConsumer, evalPs_frame]
    exact ⟨(countersOk_iff _).mpr
      ⟨hr.sub, hr.dec, hr.wdt, hr.press, hr.blink, hr.crit, idx_evalPs hr.idx, hr.depth, hr.pos⟩, h.2⟩
  | rtc => rw [evalConsumer, evalRtc_frame]; exact h
  | dio =>
    have hpress : (evalDio p s).dio.pressCnt ≤ s.cfg.longPressTicks := by
      rw [dio_evalDio]
      exact pressCount_le _ hr.press
    rw [evalConsumer, evalDio_frame]
    exact ⟨(countersOk_iff _).mpr
      ⟨hr.sub, hr.dec, hr.wdt, hpress, hr.blink, hr.crit, hr.idx, hr.depth, hr.pos⟩, h.2⟩
  | ind =>
    rw [evalConsumer, evalInd_frame]
    exact ⟨(countersOk_iff _).mpr
      ⟨hr.sub, hr.dec, hr.wdt, hr.press, cnt_evalInd hr.blink, hr.crit, hr.idx, hr.depth, hr.pos⟩, h.2⟩
  | run =>
    obtain ⟨hcrit, hind⟩ := (evalRun_move s).crit_ind hr.crit
    rw [evalConsumer, evalRun_frame s]
    exact ⟨(countersOk_iff _).mpr
      ⟨hr.sub, hr.dec, hr.wdt, hr.press, hind.trans_le hr.blink, hcrit, hr.idx, hr.depth, hr.pos⟩, h.2⟩

/-! ## Ticks, passes, samples and resets -/

theorem ranges_oneTick {s : State} (hwf : s.cfg.wf = true) (h : Ranges s) : Ranges (oneTick s) := by
  cases hrun : s.halted with
  | true => rw [oneTick_of_halted hrun]; exact h
  | false =>
    have hr := h.inRange
    obtain ⟨hsub, -, hget⟩ := schedTick_get s.cfg s.sched
    have hdec : ∀ i, (schedTick s.cfg s.sched).dec.get i < s.cfg.period.get i := fun i => by
      have hpos := period_pos hwf i
      have hlt := hr.dec i
      rw [(hget i).2]
      split
      · split <;> omega
      · exact hlt
    have hlt : (schedTick s.cfg s.sched).sub < s.cfg.ticksPerMs := by
      rw [hsub]
      exact Nat.mod_lt _ (ticksPerMs_pos hwf)
    rw [oneTick_of_running hrun]
    exact ⟨(countersOk_iff _).mpr
      ⟨hlt, hdec, Nat.min_le_right _ _, hr.press, hr.blink, hr.crit, hr.idx, hr.depth, hr.pos⟩, h.2⟩

theorem ranges_loopStep (p : Pins) {s : State} (h : Ranges s) : Ranges (loopStep p s) := by
  have hrearm : ∀ fl, Ranges { s with
      wdtCnt := if s.loopPos = .ps then 0 else s.wdtCnt, sched := { s.sched with flag := fl } } := fun fl => by
    have hr := h.inRange
    have hwdt : (if s.loopPos = .ps then 0 else s.wdtCnt) ≤ s.cfg.wdtTicks := by
      split
      · exact Nat.zero_le _
      · exact hr.wdt
    exact ⟨(countersOk_iff _).mpr
      ⟨hr.sub, hr.dec, hwdt, hr.press, hr.blink, hr.crit, hr.idx, hr.depth, hr.pos⟩, h.2⟩
  rcases loopStep_cases p s with e | ⟨-, u, e, rfl | ⟨-, -, rfl⟩⟩ <;> rw [e]
  · exact h
  · exact hrearm s.sched.flag
  · exact ranges_evalConsumer s.loopPos p (hrearm _)

theorem ranges_sample {s : State} (hwf : s.cfg.wf = true) (ch : Channel) (v : Half) (h : Ranges s) :
    Ranges (sampleResult ch v s) := by
  cases ch with
  | analog j => exact h
  | temperature =>
    have hr := h.inRange
    have hpos : s.filt.tpos < s.filt.tbuf.length := hr.depth ▸ hr.pos
    refine ⟨(countersOk_iff _).mpr ⟨hr.sub, hr.dec, hr.wdt, hr.press, hr.blink, hr.crit, hr.idx,
      List.length_set.trans hr.depth, Nat.mod_lt _ (tempDepth_pos hwf)⟩, (tempOk_iff _).mpr ?_⟩
    change tempSum s.filt v = bufferSum (s.filt.tbuf.set s.filt.tpos v)
    rw [bufferSum_set hpos, tempSum, (tempOk_iff s).mp h.2]

/-- The Wake entry action restarts the press timing, the indicator, the scheduler and the watchdog. -/
theorem ranges_wakeEntry {s : State} (hwf : s.cfg.wf = true) (p : Pins)
    (hcrit : s.critCnt ≤ s.cfg.critTimeout + s.cfg.critGrace) (hidx : s.ps.idx ≤ Config.nvMirrorSize)
    (hdepth : s.filt.tbuf.length = s.cfg.tempDepth) (hpos : s.filt.tpos < s.cfg.tempDepth) (htemp : tempOk s = true) :
    Ranges (wakeEntry p s) := by
  have hpress : (if p.btn then s.cfg.longPressTicks else 0) ≤ s.cfg.longPressTicks := by split <;> omega
  have hdec : ∀ i, (PerConsumer.all 0).get i < s.cfg.period.get i := fun i => by
    rw [perConsumer_get_all]
    exact period_pos hwf i
  rw [wakeEntry_eq]
  exact ⟨(countersOk_iff _).mpr ⟨ticksPerMs_pos hwf, hdec, Nat.zero_le _, hpress, Nat.zero_le _, hcrit, hidx, hdepth,
    hpos⟩, htemp⟩

theorem ranges_powerOnReset {s : State} (hwf : s.cfg.wf = true) (p : Pins) : Ranges (powerOnReset p s) :=
  ranges_wakeEntry (s := clearAll s) hwf p (Nat.zero_le _) (Nat.zero_le _) List.length_replicate (tempDepth_pos hwf)
    ((tempOk_iff _).mpr (bufferSum_replicate_zero _).symm)

theorem ranges_wakeUp {s : State} (hwf : s.cfg.wf = true) (p : Pins) (h : Ranges s) : Ranges (wakeUp p s) := by
  have hr := h.inRange
  rcases wakeUp_cases p s with ⟨-, e⟩ | ⟨-, e⟩ <;> rw [e]
  · exact ranges_wakeEntry (s := { s with halted := false, run := .wake }) hwf p hr.crit hr.idx hr.depth hr.pos h.2
  · exact h

theorem ranges_of_effect {s t : State} {i : Instr} (heffect : Effect s i t) (hwf : s.cfg.wf = true) (h : Ranges s) :
    Ranges t := by
  cases heffect with
  | wire e => exact ranges_regInvariant.service h e
  | host es => exact ranges_regInvariant.transact h es
  | access p acc => exact ranges_regInvariant.access h p acc
  | statusFields | dinFields | resume | evalRtcHeld => exact h
  | hangguard => rw [hangGuard_frame]; exact h
  | suspend => rw [busSuspend, detachBus_eq]; exact h
  | shutdown => rw [busShutdown, detachBus_eq]; exact h
  | tick => exact ranges_oneTick hwf h
  | loopStep p => exact ranges_loopStep p h
  | eval c p => exact ranges_evalConsumer c p h
  | wdtExpire p =>
    rcases watchdogExpire_cases p s with e | e <;> rw [e]
    · exact ranges_powerOnReset hwf p
    · exact h
  | second => rw [oneSecond_frame]; exact h
  | sample ch v => exact ranges_sample hwf ch v h
  | powerOn p => exact ranges_powerOnReset hwf p
  | wakeup p => exact ranges_wakeUp hwf p h

/-- Settles O8: the operation of the decoded event keeps every range, and bytes passed over touch no counter. -/
theorem stepsKeepCounterRanges : Obligations.StepsKeepCounterRanges := by
  unfold Obligations.StepsKeepCounterRanges
  intro s t hwf hcount htemp hstep
  have h : Ranges s := ⟨hcount, htemp⟩
  rcases step_cases s with ⟨i, rest, -, e⟩ | ⟨err, -, e⟩
  · exact ranges_of_effect (effect_of_exec (e.symm.trans hstep)) (s := s.take rest) hwf h
  · obtain rfl := Host.Outcome.next.inj (e.symm.trans hstep)
    exact h

end Sys2Proof.Machine
end

section
/-! What the system-owned slots hold, O9, and the reset state, O10. -/

namespace Sys2Proof.Machine

/-! ## The unnamed bits of `STATUS` -/

/-- The bits of a `STATUS` byte that no field names are 0 (10_state.md R16, 30_encoding.md R99). -/
def UnnamedZero (c : Config) (b : Byte) : Prop :=
  ∀ n < 8, n ≠ c.stCritBit → n ≠ c.stShortBit → ¬(c.stReasonLsb ≤ n ∧ n < c.stReasonLsb + 3) → b.getLsbD n = false

theorem unnamedZero_zero (c : Config) : UnnamedZero c 0x00#8 := fun _ _ _ _ _ => BitVec.getLsbD_zero

theorem unnamedZero_putBit {c : Config} {b : Byte} (h : UnnamedZero c b) {i : Nat}
    (hi : i = c.stCritBit ∨ i = c.stShortBit) (v : Bool) : UnnamedZero c (putBit b i v) := by
  intro n hn hcrit hshort hreason
  have hne : n ≠ i := by rcases hi with rfl | rfl <;> assumption
  rw [getLsbD_putBit, if_neg fun e => hne e.1]
  exact h n hn hcrit hshort hreason

theorem unnamedZero_putField3 {c : Config} {b : Byte} (h : UnnamedZero c b) (r : BitVec 3) :
    UnnamedZero c (putField3 b c.stReasonLsb r) := by
  intro n hn hcrit hshort hreason
  rw [getLsbD_putField3, if_neg fun e => hreason ⟨e.1, e.2.1⟩]
  exact h n hn hcrit hshort hreason

/-- `STATUS` is its three fields packed exactly where its unnamed bits are 0. -/
theorem eq_packStatus_iff (s : State) :
    s.slot 2 = packStatus s.cfg s.statusCrit s.statusShort s.statusReason ↔ UnnamedZero s.cfg (s.slot 2) := by
  refine ⟨fun h n hn hcrit hshort hreason => ?_, fun h => byte_ext fun n hn => ?_⟩
  · rw [h, getLsbD_packStatus s.cfg hn, if_neg hcrit, if_neg hshort, if_neg hreason]
  · rw [getLsbD_packStatus s.cfg hn]
    split
    next hcrit => rw [hcrit]; rfl
    next hcrit =>
      split
      next hshort => rw [hshort]; rfl
      next hshort =>
        split
        next hreason =>
          have hbit : s.cfg.stReasonLsb + (n - s.cfg.stReasonLsb) = n := Nat.add_sub_cancel' hreason.1
          have hlt : n - s.cfg.stReasonLsb < 3 := by omega
          rw [State.statusReason, getLsbD_getField3, hbit, decide_eq_true hlt, Bool.true_and]
        next hreason => exact h n hn hcrit hshort hreason

/-! ## The five slots -/

/-- The four values of `NVCTL` (10_state.md R23). -/
def NvctlOk (c : Config) (b : Byte) : Prop :=
  b = Config.nvIdle ∨ b = Config.nvBusy ∨ b = c.nvCmdCommit ∨ b = c.nvCmdReload

theorem nvctlOk_filter (c : Config) (b : Byte) : NvctlOk c (nvctlFilter c b) := by
  unfold nvctlFilter
  split
  next h => exact .inr (.inr h)
  next => exact .inl rfl

/-- `slotsOk` slot by slot. -/
def SystemSlots (s : State) : Prop :=
  s.slot 0 = s.cfg.idValue ∧ s.slot 1 = packVersion s.cfg.versionMajor s.cfg.versionMinor ∧
    UnnamedZero s.cfg (s.slot 2) ∧ s.slot 3 = s.dinPack ∧ NvctlOk s.cfg (s.slot 18)

theorem slotsOk_iff (s : State) : slotsOk s = true ↔ SystemSlots s := by
  simp only [slotsOk, SystemSlots, NvctlOk, Bool.and_eq_true, Bool.or_eq_true, beq_iff_eq, eq_packStatus_iff, and_assoc,
    or_assoc]

/-- A state that agrees with another on what the system's slots hold and depend on. -/
theorem SystemSlots.of_same {s t : State} (h : SystemSlots s) (hcfg : t.cfg = s.cfg) (hdin : t.dinPack = s.dinPack)
    (hslots : ∀ k : Fin 32, k ∈ ({0, 1, 2, 3, 18} : Finset (Fin 32)) → t.slot k = s.slot k) : SystemSlots t := by
  unfold SystemSlots
  rw [hcfg, hdin, hslots 0 (by decide), hslots 1 (by decide), hslots 2 (by decide), hslots 3 (by decide),
    hslots 18 (by decide)]
  exact h

theorem SystemSlots.of_writesWithin {s t : State} {W : Finset (Fin 32)} (h : SystemSlots s) (hcfg : t.cfg = s.cfg)
    (hdin : t.dinPack = s.dinPack) (hw : WritesWithin W s t) (hW : Disjoint W {0, 1, 2, 3, 18}) : SystemSlots t :=
  h.of_same hcfg hdin fun k hk => hw k fun hkW => Finset.disjoint_left.mp hW hkW hk

/-- `STATUS` written within its named bits. -/
theorem SystemSlots.setStatus {s : State} (h : SystemSlots s) {b : Byte} (hb : UnnamedZero s.cfg b) :
    SystemSlots (s.setSlot 2 b) := by
  obtain ⟨hid, hver, -, hdin, hnv⟩ := h
  have hother (k : Fin 32) (hk : k ≠ 2) : (s.setSlot 2 b).slot k = s.slot k := slot_setSlot_other s b hk
  unfold SystemSlots
  rw [hother 0 (by decide), hother 1 (by decide), hother 3 (by decide), hother 18 (by decide), slot_setSlot_same]
  exact ⟨hid, hver, hb, hdin, hnv⟩

/-- `NVCTL` written with one of its four values. -/
theorem SystemSlots.setNvctl {s : State} (h : SystemSlots s) {b : Byte} (hb : NvctlOk s.cfg b) :
    SystemSlots (s.setSlot 18 b) := by
  obtain ⟨hid, hver, hst, hdin, -⟩ := h
  have hother (k : Fin 32) (hk : k ≠ 18) : (s.setSlot 18 b).slot k = s.slot k := slot_setSlot_other s b hk
  unfold SystemSlots
  rw [hother 0 (by decide), hother 1 (by decide), hother 2 (by decide), hother 3 (by decide), slot_setSlot_same]
  exact ⟨hid, hver, hst, hdin, hb⟩

theorem systemSlots_regInvariant : RegInvariant SystemSlots where
  bus _ _ _ _ h := h
  read p s h := by
    rcases regRead_slot_cases p s with hw | e
    · exact h.of_writesWithin (congrArg State.cfg (regRead_frame s p) :) (congrArg State.dinPack (regRead_frame s p) :)
        hw (by decide)
    · have ⟨_, _, hst, _, _⟩ := h
      rw [e]
      exact h.setStatus (unnamedZero_putBit hst (.inr rfl) false)
  write p b s h := by
    rcases regWrite_spec s p b with ⟨_, e⟩ | ⟨_, _, e⟩ | ⟨_, _, e⟩ | ⟨_, hk, h18, e⟩ <;> rw [e]
    · exact h
    · exact h
    · exact h.setNvctl (nvctlOk_filter s.cfg b)
    · have hfar : ∀ k : Fin 32, ¬k.val < Config.roBoundary → k ≠ 18 → k ∉ ({0, 1, 2, 3, 18} : Finset (Fin 32)) := by
        decide
      refine h.of_same rfl rfl fun k hmem => ?_
      rw [slot_writeSlot, if_neg]
      rintro rfl
      exact hfar _ hk h18 hmem

/-! ## The evaluations -/

theorem systemSlots_evalPs {s : State} (h : SystemSlots s) : SystemSlots (evalPs s) := by
  unfold evalPs
  split
  next hw =>
    rw [psWriteBack_eq hw]
    split
    · exact h.setNvctl (.inl rfl)
    · exact h
  next =>
    split
    · exact SystemSlots.setNvctl (s := { s with nv := _, ps := _ }) h (.inr (.inl rfl))
    · split
      · exact SystemSlots.setNvctl (s := { s with mem := _, ps := _ }) h (.inl rfl)
      · exact h

/-- The monitor publishes the snapshot and sets no bit of `STATUS` but `short`. -/
theorem systemSlots_evalDio (p : Pins) {s : State} (h : SystemSlots s) : SystemSlots (evalDio p s) := by
  obtain ⟨hid, hver, hst, -, hnv⟩ := h
  have hcfg : (evalDio p s).cfg = s.cfg := (congrArg State.cfg (evalDio_frame s p) :)
  have hother (k : Fin 32) (h2 : k ≠ 2) (h3 : k ≠ 3) : (evalDio p s).slot k = s.slot k := by
    rw [slot_evalDio, if_neg h3, if_neg fun h => h2 h.1]
  have hstatus : UnnamedZero s.cfg ((evalDio p s).slot 2) := by
    rw [slot_evalDio, if_neg (by decide)]
    split
    · exact unnamedZero_putBit hst (.inr rfl) true
    · exact hst
  unfold SystemSlots
  rw [hcfg, hother 0 (by decide) (by decide), hother 1 (by decide) (by decide), hother 18 (by decide) (by decide)]
  exact ⟨hid, hver, hstatus, by rw [slot_evalDio, if_pos rfl], hnv⟩

theorem unnamedZero_powerStatus {s : State} (h : UnnamedZero s.cfg (s.slot 2)) : UnnamedZero s.cfg (powerStatus s) := by
  unfold powerStatus
  split
  · split
    · exact unnamedZero_putBit h (.inl rfl) true
    · exact h
  · exact unnamedZero_putBit h (.inl rfl) false

theorem Prelude.unnamedZero {s u : State} (hu : Prelude s u) (h : UnnamedZero s.cfg (s.slot 2)) :
    UnnamedZero s.cfg (u.slot 2) := by
  cases hu with
  | idle => exact h
  | tick => rw [slot_powerTick, if_neg (by simp), if_pos rfl]; exact unnamedZero_powerStatus h

/-- The sequencer writes the `crit` bit and the reason of `STATUS`, nothing unnamed. -/
theorem SeqMove.unnamedZero {s t : State} (hmove : SeqMove s t) (h : UnnamedZero s.cfg (s.slot 2)) :
    UnnamedZero s.cfg (t.slot 2) := by
  cases hmove with
  | stay hu => exact hu.unnamedZero h
  | toCharge hu => rw [slot_eq_of_slots_eq (slots_goCharge _)]; exact hu.unnamedZero h
  | toWait | toPowerOff => exact h
  | toPower | waitToPower => rw [slot_goPower, if_pos rfl]; exact unnamedZero_putField3 h _
  | toSleep hu => rw [slot_eq_of_slots_eq (slots_goSleep _)]; exact hu.unnamedZero h

theorem systemSlots_evalRun {s : State} (h : SystemSlots s) : SystemSlots (evalRun s) := by
  obtain ⟨hid, hver, hst, hdin, hnv⟩ := h
  have hframe := evalRun_frame s
  have hcfg : (evalRun s).cfg = s.cfg := (congrArg State.cfg hframe :)
  have hpack : (evalRun s).dinPack = s.dinPack := (congrArg State.dinPack hframe :)
  have hw := evalRun_writesWithin s
  unfold SystemSlots
  rw [hcfg, hpack, hw 0 (by decide), hw 1 (by decide), hw 3 (by decide), hw 18 (by decide)]
  exact ⟨hid, hver, (evalRun_move s).unnamedZero hst, hdin, hnv⟩

theorem systemSlots_evalConsumer (c : Consumer) (p : Pins) {s : State} (h : SystemSlots s) :
    SystemSlots (evalConsumer c p s) := by
  cases c with
  | ps => exact systemSlots_evalPs h
  | rtc =>
    exact h.of_writesWithin (congrArg State.cfg (evalRtc_frame s) :) (congrArg State.dinPack (evalRtc_frame s) :)
      (evalRtc_writesWithin s) (by decide)
  | dio => exact systemSlots_evalDio p h
  | ind => rw [evalConsumer, evalInd_frame]; exact h
  | run => exact systemSlots_evalRun h

theorem systemSlots_loopStep (p : Pins) {s : State} (h : SystemSlots s) : SystemSlots (loopStep p s) := by
  rcases loopStep_cases p s with e | ⟨-, u, e, rfl | ⟨-, -, rfl⟩⟩ <;> rw [e]
  · exact h
  · exact h
  · exact systemSlots_evalConsumer s.loopPos p (s := { s with wdtCnt := _, sched := _ }) h

/-! ## The resets and the wake-up -/

/-- The Wake entry action publishes the snapshot of the pins it samples. -/
theorem systemSlots_wakeEntry (p : Pins) {s : State} (hid : s.slot 0 = s.cfg.idValue)
    (hver : s.slot 1 = packVersion s.cfg.versionMajor s.cfg.versionMinor) (hst : UnnamedZero s.cfg (s.slot 2))
    (hnv : NvctlOk s.cfg (s.slot 18)) : SystemSlots (wakeEntry p s) := by
  have hother (k : Fin 32) (h3 : k ≠ 3) : (wakeEntry p s).slot k = s.slot k := by rw [slot_wakeEntry, if_neg h3]
  have hdin : (wakeEntry p s).slot 3 = (wakeEntry p s).dinPack := by rw [slot_wakeEntry, if_pos rfl]; rfl
  unfold SystemSlots
  rw [hdin, hother 0 (by decide), hother 1 (by decide), hother 2 (by decide), hother 18 (by decide)]
  exact ⟨hid, hver, hst, rfl, hnv⟩

theorem systemSlots_powerOnReset (p : Pins) (s : State) : SystemSlots (powerOnReset p s) := by
  have hslot := slot_clearAll s
  refine systemSlots_wakeEntry p (hslot 0) (hslot 1) ?_ ?_
  · rw [hslot]
    exact unnamedZero_zero _
  · rw [hslot]
    exact .inl rfl

theorem systemSlots_wakeUp (p : Pins) {s : State} (h : SystemSlots s) : SystemSlots (wakeUp p s) := by
  have ⟨hid, hver, hst, _, hnv⟩ := h
  rcases wakeUp_cases p s with ⟨-, e⟩ | ⟨-, e⟩ <;> rw [e]
  · exact systemSlots_wakeEntry p (s := { s with halted := false, run := .wake }) hid hver hst hnv
  · exact h

theorem systemSlots_of_effect {s t : State} {i : Instr} (heffect : Effect s i t) (hi : i.isAgentStep = true)
    (h : SystemSlots s) : SystemSlots t := by
  cases heffect with
  | wire e => exact systemSlots_regInvariant.service h e
  | host es => exact systemSlots_regInvariant.transact h es
  | access p acc => exact systemSlots_regInvariant.access h p acc
  | statusFields | dinFields | suspend | resume | shutdown | evalRtcHeld => exact absurd hi Bool.false_ne_true
  | eval c p => exact systemSlots_evalConsumer c p h
  | hangguard => rw [hangGuard_frame]; exact h
  | tick => rw [oneTick_frame]; exact h
  | loopStep p => exact systemSlots_loopStep p h
  | wdtExpire p =>
    rcases watchdogExpire_cases p s with e | e <;> rw [e]
    · exact systemSlots_powerOnReset p s
    · exact h
  | second => rw [oneSecond_frame]; exact h
  | sample ch v => rw [sampleResult_frame]; exact h
  | powerOn p => exact systemSlots_powerOnReset p s
  | wakeup p => exact systemSlots_wakeUp p h

/-- Settles O9: the operation of the decoded event keeps what the five slots hold. -/
theorem agentStepsKeepSystemSlots : Obligations.AgentStepsKeepSystemSlots := by
  unfold Obligations.AgentStepsKeepSystemSlots
  intro s t i rest _ hdec hi h hstep
  exact (slotsOk_iff t).mpr
    (systemSlots_of_effect (effect_of_step hdec hstep) hi (s := s.take rest) ((slotsOk_iff s).mp h))

/-! ## The reset state -/

/-- With no pin high the snapshot that the Wake entry action publishes is the 0x00 of the listing. -/
theorem publish_resetSlots_cfg0 :
    (resetSlots Config.cfg0).set 3 (packDin Config.cfg0 false false false false) = resetSlots Config.cfg0 := by
  decide

/-- The power-on reset of CFG0 with no pin high, field by field. -/
theorem powerOnReset_cfg0 {s : State} (hcfg : s.cfg = Config.cfg0) (hnv : s.nv = []) (hdraws : s.draws = 0)
    (hinbox : s.inbox = []) : powerOnReset ⟨false, false, false, false⟩ s = State.reset := by
  obtain ⟨cfg, inbox, out, draws, mem, nv, slots⟩ := s
  subst hcfg hnv hdraws hinbox
  rw [powerOnReset, wakeEntry_eq]
  exact congrArg (fun v => { State.reset with slots := v }) publish_resetSlots_cfg0

/-- Settles O10: each invariant by evaluation, the reset field by field. -/
theorem resetMeetsInvariants : Obligations.ResetMeetsInvariants := by
  unfold Obligations.ResetMeetsInvariants
  exact ⟨rfl, rfl, by decide, by decide, by decide, by decide,
    fun s hcfg hnv hdraws hinbox => congrArg Host.Outcome.next (powerOnReset_cfg0 hcfg hnv hdraws hinbox)⟩

end Sys2Proof.Machine
end

section
/-! Runs of one event: a correction period of the clock, O47, and a commit of the persistent store, O52. -/

namespace Sys2Proof.Machine

/-! ## A correction period -/

theorem natAbs_toInt_towardZero {v : Word} (h : 1 < v.toInt.natAbs) :
    (towardZero v).toInt.natAbs = v.toInt.natAbs - 1 := by
  rw [toInt_towardZero]
  rcases lt_trichotomy v.toInt 0 with hneg | hzero | hpos
  · rw [Int.sign_eq_neg_one_of_neg hneg]
    omega
  · omega
  · rw [Int.sign_eq_one_of_pos hpos]
    omega

/-- Seconds before the last one of a correction period advance the counter by one each (43_rtc.md R222). -/
theorem runs_seconds_counting (m : Nat) {s : State} (hen : s.rtc.corrEn = true) (hm : m < s.rtc.corrCnt.toInt.natAbs) :
    ∃ t, runs (List.replicate m .second) s = some t ∧ t.cfg = s.cfg ∧ t.rtc.corr = s.rtc.corr ∧ t.rtc.corrEn = true ∧
      t.rtc.count = s.rtc.count + BitVec.ofNat 32 m ∧ t.rtc.corrCnt.toInt.natAbs = s.rtc.corrCnt.toInt.natAbs - m := by
  induction m generalizing s with
  | zero => exact ⟨s, rfl, rfl, rfl, hen, (BitVec.add_zero _).symm, rfl⟩
  | succ m ih =>
    have hstep : oneSecond s = { s with
        alarmPending := (oneSecond s).alarmPending
        rtc := { s.rtc with
          count := s.rtc.count + 1#32, corrCnt := towardZero s.rtc.corrCnt
          alarmEn := (oneSecond s).rtc.alarmEn } } := by
      rw [oneSecond_eq, rtcAdvance_of_counting s.cfg hen (by omega)]
    have hcnt : (oneSecond s).rtc.corrCnt.toInt.natAbs = s.rtc.corrCnt.toInt.natAbs - 1 := by
      rw [hstep]
      exact natAbs_toInt_towardZero (by omega)
    obtain ⟨t, hrun, hcfg, hcorr, hen', hcount, hleft⟩ := ih (s := oneSecond s) (by rw [hstep]; exact hen) (by omega)
    refine ⟨t, hrun, ?_, ?_, hen', ?_, by omega⟩
    · rw [hcfg, hstep]
    · rw [hcorr, hstep]
    · rw [hcount, hstep, Nat.add_comm m 1, BitVec.ofNat_add, BitVec.add_assoc]

/-- Settles O47: all seconds but the last count, and the last one finds the correction counter one away from zero. -/
theorem correctionNudgesOncePerPeriod : Obligations.CorrectionNudgesOncePerPeriod := by
  unfold Obligations.CorrectionNudgesOncePerPeriod
  intro s n hen hne hcnt hn
  have hpos : 0 < n := by
    rw [hn, Int.natAbs_pos]
    exact fun h => hne (BitVec.toInt_inj.mp (h.trans BitVec.toInt_zero.symm))
  obtain ⟨t, hrun, hcfg, hcorr, hen', hcount, hleft⟩ :=
    runs_seconds_counting (n - 1) (s := s) hen (by rw [hcnt, ← hn]; omega)
  have hlast : t.rtc.corrCnt.toInt.natAbs ≤ 1 := by
    rw [hleft, hcnt, ← hn]
    omega
  have hsucc : BitVec.ofNat 32 n = BitVec.ofNat 32 (n - 1) + 1#32 := by
    rw [← BitVec.ofNat_add, Nat.sub_add_cancel hpos]
  refine ⟨t, oneSecond t, hrun, rfl, hcount, ?_, ?_⟩
  · rw [oneSecond_eq, rtcAdvance_of_nudge t.cfg hen' hlast, hcfg, hcorr, hcount, hsucc]
    dsimp only
    split
    · rw [BitVec.add_assoc, BitVec.add_assoc, BitVec.add_assoc]; rfl
    · rw [← BitVec.add_assoc, BitVec.add_sub_cancel]
  · rw [oneSecond_eq, rtcAdvance_of_nudge t.cfg hen' hlast]
    exact hcorr

/-! ## A commit -/

/-- A commit that has copied `k` bytes of `m`: `NVCTL` reads busy and the mirror holds them (46_boundary_modules.md
R301). -/
def Committing (c : Config) (m : Memory) (k : Nat) (s : State) : Prop :=
  s.cfg = c ∧ s.mem = m ∧ s.ps = { state := .writing, idx := k } ∧ s.slot 18 = Config.nvBusy ∧
    ∀ a < k, Memory.read s.nv a = Memory.read m a

variable {c : Config} {m : Memory} {k : Nat} {s : State}

theorem committing_psCommit (s : State) : Committing s.cfg s.mem 0 (psCommit s) :=
  ⟨rfl, rfl, rfl, slot_setSlot_same _ 18 Config.nvBusy, fun _ h => absurd h (Nat.not_lt_zero _)⟩

/-- What a batch copies joins what the batches before it copied. -/
theorem read_nv_psWriteBack (h : Committing c m k s) {a : Nat} (ha : a < k + s.batch) :
    Memory.read (psWriteBack s).nv a = Memory.read m a := by
  obtain ⟨-, hmem, hps, -, hread⟩ := h
  have hnv : (psWriteBack s).nv = Memory.copy s.mem s.ps.idx s.batch s.nv :=
    congrArg State.nv (psWriteBack_eq (congrArg PsState.state hps))
  have hidx : s.ps.idx = k := congrArg PsState.idx hps
  rw [hnv, hidx, Memory.read_copy, hmem]
  split
  next => rfl
  next hout => exact hread a (by omega)

/-- A batch that does not reach the end of the region. -/
theorem committing_psWriteBack (h : Committing c m k s) (hk : k + c.nvBatch < 1024) :
    Committing c m (k + c.nvBatch) (psWriteBack s) := by
  have ⟨hcfg, hmem, hps, hbusy, _⟩ := h
  have hw : s.ps.state = .writing := congrArg PsState.state hps
  have hidx : s.ps.idx = k := congrArg PsState.idx hps
  have hbatch : s.batch = c.nvBatch := by
    rw [State.batch, hcfg, hidx, Config.nvMirrorSize]
    omega
  have hopen : ¬(k + c.nvBatch = Config.nvMirrorSize) := by
    rw [Config.nvMirrorSize]
    omega
  have hframe := psWriteBack_frame hw
  refine ⟨(congrArg State.cfg hframe :).trans hcfg, (congrArg State.mem hframe :).trans hmem, ?_, ?_, fun a ha => ?_⟩
  · rw [psWriteBack_eq hw]
    dsimp only
    rw [hidx, hbatch, if_neg hopen]
  · rw [slot_psWriteBack hw, hidx, hbatch, if_neg fun e => hopen e.2.1, hbusy]
  · exact read_nv_psWriteBack h (by rw [hbatch]; exact ha)

/-- The batch that reaches the end of the region: the transaction ends, `NVCTL` reads idle, the mirror is whole. -/
theorem committed_psWriteBack (h : Committing c m k s) (hle : k ≤ 1024) (hk : 1024 ≤ k + c.nvBatch) :
    (psWriteBack s).ps.state = .idle ∧ (psWriteBack s).slot 18 = Config.nvIdle ∧
      (∀ a < 1024, Memory.read (psWriteBack s).nv a = Memory.read m a) ∧ (psWriteBack s).mem = m := by
  have ⟨hcfg, hmem, hps, hbusy, _⟩ := h
  have hw : s.ps.state = .writing := congrArg PsState.state hps
  have hidx : s.ps.idx = k := congrArg PsState.idx hps
  have hend : k + s.batch = Config.nvMirrorSize := by
    rw [State.batch, hcfg, hidx, Config.nvMirrorSize]
    omega
  refine ⟨?_, ?_, fun a ha => read_nv_psWriteBack h ?_, (congrArg State.mem (psWriteBack_frame hw) :).trans hmem⟩
  · rw [psWriteBack_eq hw]
    dsimp only
    rw [hidx, if_pos hend]
  · rw [slot_psWriteBack hw, if_pos ⟨rfl, hidx ▸ hend, hbusy⟩]
  · rw [hend]
    exact ha

/-- Batches that do not reach the end of the region, one after the other. -/
theorem runs_batches (j : Nat) (h : Committing c m k s) (hk : k + j * c.nvBatch < 1024) :
    ∃ t, runs (List.replicate j .evalPs) s = some t ∧ Committing c m (k + j * c.nvBatch) t := by
  induction j generalizing s k with
  | zero => exact ⟨s, rfl, by rwa [Nat.zero_mul]⟩
  | succ j ih =>
    rw [Nat.succ_mul] at hk ⊢
    have ⟨_, _, hps, _, _⟩ := h
    have hstep : evalPs s = psWriteBack s := evalPs_of_writing (congrArg PsState.state hps)
    obtain ⟨t, hrun, ht⟩ := ih (committing_psWriteBack h (by omega)) (by omega)
    refine ⟨t, ?_, ?_⟩
    · rw [← hstep] at hrun
      exact hrun
    · rwa [show k + (j * c.nvBatch + c.nvBatch) = k + c.nvBatch + j * c.nvBatch by omega]

/-- The number of batches that a region of 1024 bytes takes. -/
theorem batches_bounds {b n : Nat} (hb : 0 < b) (hn : n = (1024 + b - 1) / b) :
    0 < n ∧ (n - 1) * b < 1024 ∧ 1024 ≤ (n - 1) * b + b := by
  have hpos : 0 < n := by
    rw [hn]
    exact Nat.div_pos (by omega) hb
  have hmul : (n - 1) * b + b = n * b := by rw [← Nat.succ_mul, Nat.succ_eq_add_one, Nat.sub_add_cancel hpos]
  have hle : n * b ≤ 1024 + b - 1 := hn ▸ Nat.div_mul_le_self _ _
  have hlt : 1024 + b - 1 < n * b + b := by
    have h := Nat.lt_div_mul_add (a := 1024 + b - 1) hb
    rwa [← hn] at h
  omega

/-- Settles O52: the evaluation that starts the commit, all batches but the last, and the last. -/
theorem commitCopiesWholeMirror : Obligations.CommitCopiesWholeMirror := by
  unfold Obligations.CommitCopiesWholeMirror
  intro s n hwf hidle hcmd hn
  have hb : 0 < s.cfg.nvBatch := by
    simp only [Config.wf, Config.wfTriggers, Bool.and_eq_true, decide_eq_true_eq] at hwf
    omega
  obtain ⟨hpos, hlt, hge⟩ := batches_bounds hb hn
  obtain ⟨t, hrun, ht⟩ := runs_batches (n - 1) (committing_psCommit s) (by omega)
  rw [Nat.zero_add] at ht
  have ⟨_, _, hps, hbusy, _⟩ := ht
  obtain ⟨hdone, hnvctl, hread, hmem⟩ := committed_psWriteBack ht (by omega) hge
  have hw : t.ps.state = .writing := congrArg PsState.state hps
  refine ⟨t, psWriteBack t, ?_, hw, hbusy, congrArg Host.Outcome.next (evalPs_of_writing hw), hdone, hnvctl, hread,
    hmem⟩
  rw [← Nat.sub_add_cancel hpos, List.replicate_succ]
  rw [← evalPs_of_commit hidle hcmd] at hrun
  exact hrun

end Sys2Proof.Machine
end

section
/-! The register space through its pointers, slot rows, trigger bytes and layouts: O15, O23 to O30. -/

namespace Sys2Proof.Machine

/-! ## Reads and writes do not depend on the bus -/

/-- What a read returns and changes depends on neither the bus state nor the draws nor the last answers. -/
theorem regRead_of_host (s : State) (p : Half) (b : BusState) (d : Nat) (o : List Resp) :
    regRead p { s with bus := b, draws := d, out := o } =
      ((regRead p s).1, { (regRead p s).2 with bus := b, draws := d, out := o }) := by
  refine (regRead_respond { s with bus := b, draws := d } p o).trans ?_
  rw [regRead_bus_draws s p b d]
  rfl

/-- What a write stores depends on neither the bus state nor the draws nor the last answers. -/
theorem regWrite_of_host (s : State) (p : Half) (x : Byte) (b : BusState) (d : Nat) (o : List Resp) :
    regWrite p x { s with bus := b, draws := d, out := o } =
      { regWrite p x s with bus := b, draws := d, out := o } := by
  rcases regWrite_spec s p x with ⟨hp, e⟩ | ⟨hp, hk, e⟩ | ⟨hp, hk, e⟩ | ⟨hp, hk, h18, e⟩ <;> rw [e]
  · rw [regWrite_persist _ _ hp]
  · rw [regWrite_readOnly _ _ hp hk]
  · rw [regWrite_nvctl _ _ hp hk]; rfl
  · rw [regWrite_plain _ _ hp hk h18]; rfl

/-! ## The three accesses of a pointer -/

theorem accessAt_read (p : Half) (s : State) :
    accessAt p .read s = { (regRead p s).2 with
      bus := { s.bus with ptr := p + 1#16 }, out := [.tx (regRead p s).1] } := by
  have h : regRead p (s.setPtr p) = _ := regRead_bus_draws s p { s.bus with ptr := p } s.draws
  have hdraws : (regRead p s).2.draws = s.draws := (congrArg State.draws (regRead_frame s p) :)
  rw [accessAt, fetchByte_eq]
  simp only [setPtr_bus]
  rw [h, ← hdraws]
  rfl

theorem accessAt_write (p : Half) (b : Byte) (s : State) :
    accessAt p (.write b) s = { regWrite p b s with bus := { s.bus with ptr := p + 1#16 }, out := [.ack] } := by
  have h : regWrite p b (s.setPtr p) = _ := regWrite_of_host s p b { s.bus with ptr := p } s.draws s.out
  have hframe := regWrite_frame s p b
  have hdraws : (regWrite p b s).draws = s.draws := (congrArg State.draws hframe :)
  rw [accessAt, storeByte_eq]
  simp only [setPtr_bus]
  rw [h, ← hdraws]
  rfl

/-! ## The access behind a pointer's row -/

/-- Each of the 32 slot rows is its access at the pointer `{x, k}` (30_encoding.md R98, R112). -/
theorem exec_slotRow {k : Nat} (hk : k < 32) (x : BitVec 11) (acc : Access) (s : State) :
    exec (slotRow k x acc) s = .next (accessAt (slotPointer x k) acc s) := by
  interval_cases k <;> rfl

/-- The pointer a row of the persistent region was found from. -/
theorem persistPointer_extract {p : Half} (hp : p.toNat < Config.persistSize) :
    persistPointer (p.extractLsb' 0 12) = p := by
  refine BitVec.eq_of_toNat_eq ?_
  rw [toNat_persistPointer, BitVec.extractLsb'_toNat, Nat.shiftRight_zero]
  exact Nat.mod_eq_of_lt hp

/-- The pointer a slot row was found from. -/
theorem slotPointer_extract (p : Half) : slotPointer (p.extractLsb' 5 11) (p.toNat % Config.ctrlSlots) = p := by
  have hlt := p.isLt
  refine BitVec.eq_of_toNat_eq ?_
  rw [Config.ctrlSlots, toNat_slotPointer _ _ (Nat.mod_lt _ (by decide)), BitVec.extractLsb'_toNat,
    Nat.shiftRight_eq_div_pow]
  omega

/-- The row a pointer selects runs the access at that pointer (20_memory.md R60). -/
theorem exec_rowOfPointer (p : Half) (acc : Access) (s : State) :
    exec (rowOfPointer p acc) s = .next (accessAt p acc s) := by
  unfold rowOfPointer
  split
  next hp =>
    change Host.Outcome.next (accessAt (persistPointer (p.extractLsb' 0 12)) acc s) = _
    rw [persistPointer_extract hp]
  next => rw [exec_slotRow (k := p.toNat % Config.ctrlSlots) (Nat.mod_lt _ (by decide)), slotPointer_extract]

/-- Settles O23: the three accesses below `PERSIST_SIZE`. -/
theorem persistentPointerAccess : Obligations.PersistentPointerAccess := by
  unfold Obligations.PersistentPointerAccess
  intro p b s
  have hp := persistPointer_low p
  refine ⟨rfl, ?_, _, rfl, fun a => ?_, ?_⟩
  · change Host.Outcome.next (accessAt (persistPointer p) .read s) = _
    rw [accessAt_read, regRead_persist s hp, toNat_persistPointer]
  · rw [accessAt_write, regWrite_persist s b hp, toNat_persistPointer]
    exact Memory.read_write s.mem p.toNat b a
  · rw [accessAt_write, regWrite_persist s b hp]

/-! ## Slot rows: reads -/

section
variable {x : BitVec 11} (hx : slotPrefixOk x = true) (k : Fin 32)
include hx

theorem slotPointer_notPersist : ¬ (slotPointer x k.val).toNat < Config.persistSize :=
  slotPointer_high x k.val k.isLt hx

theorem slotPointer_facts : 4096 ≤ (slotPointer x k.val).toNat ∧ (slotPointer x k.val).toNat % 32 = k.val :=
  ⟨Nat.not_lt.mp (slotPointer_notPersist hx k), slotOf_eq_iff.mp (slotOf_slotPointer x k.val k.isLt)⟩

end

theorem slotOf_slotPointer_fin (x : BitVec 11) (k : Fin 32) : slotOf (slotPointer x k.val) = k :=
  slotOf_slotPointer x k.val k.isLt

/-- The slots whose read has a side effect, by number (20_memory.md R61). -/
theorem ne_highSlot_of_val {k : Fin 32} (hk : k.val ∉ [2, 4, 6, 8, 10, 12]) : k ≠ 2 ∧ ∀ j, k ≠ highSlot j := by
  decide +revert

/-- Settles O24: a slot row's access at its pointer, and the plain branch of `RegRead`. -/
theorem slotRowsLoadPointerAndRead : Obligations.SlotRowsLoadPointerAndRead := by
  unfold Obligations.SlotRowsLoadPointerAndRead
  intro k x s
  refine ⟨slotPointer x k.val, toNat_slotPointer x k.val k.isLt, exec_slotRow k.isLt x .point s, fun hx hk => ?_⟩
  obtain ⟨hstatus, hhigh⟩ := ne_highSlot_of_val hk
  rw [exec_slotRow k.isLt, accessAt_read,
    regRead_of_slot s (slotPointer_notPersist hx k) (slotOf_slotPointer_fin x k) hstatus hhigh]

/-- Settles O25: the two branches of `RegRead` with a side effect, as O16 states them. -/
theorem readsWithSideEffects : Obligations.ReadsWithSideEffects := by
  unfold Obligations.ReadsWithSideEffects
  intro x s hx
  refine ⟨?_, fun j => ?_⟩
  · obtain ⟨hhigh, hnum⟩ := slotPointer_facts hx 2
    obtain ⟨hframe, -, hstatus, -, -⟩ := registerReadRule s (slotPointer x 2)
    obtain ⟨hbyte, hbits, hkeep⟩ := hstatus hhigh hnum
    refine ⟨_, (exec_slotRow (k := 2) (by decide) x .read s).trans (congrArg _ (accessAt_read _ s)), hbits, hkeep, ?_⟩
    rw [hbyte, hframe]
  · obtain ⟨hhigh, hnum⟩ := slotPointer_facts hx (highSlot j)
    obtain ⟨hframe, -, -, hresult, -⟩ := registerReadRule s (slotPointer x (highSlot j).val)
    obtain ⟨hbyte, hhi, hlo, hkeep⟩ := hresult j hhigh hnum
    refine ⟨_, (exec_slotRow (highSlot j).isLt x .read s).trans (congrArg _ (accessAt_read _ s)), hhi, hlo, hkeep, ?_⟩
    rw [hbyte, hframe]

/-! ## Slot rows: writes -/

/-- A write to a writable slot but `NVCTL` through a pointer: the byte in the slot, the commit flag of a low byte. -/
theorem accessAt_write_plain {p : Half} {k : Fin 32} (s : State) (b : Byte) (hp : ¬ p.toNat < Config.persistSize)
    (hslot : slotOf p = k) (hk : 14 ≤ k.val) (h18 : k ≠ 18) :
    (∀ j, (accessAt p (.write b) s).slot j = if j = k then b else s.slot j) ∧
      accessAt p (.write b) s = { s with
        slots := (accessAt p (.write b) s).slots
        timeCommit := s.timeCommit || k == 22, alarmCommit := s.alarmCommit || k == 26
        corrCommit := s.corrCommit || k == 30, bus := { s.bus with ptr := p + 1#16 }, out := [.ack] } := by
  subst hslot
  rw [accessAt_write, regWrite_plain s b hp (Nat.not_lt.mpr hk) h18]
  exact ⟨fun j => slot_writeSlot s (slotOf p) j b, rfl⟩

/-- A write to a writable slot that is no 32-bit field's sets no commit flag. -/
theorem accessAt_write_unflagged {p : Half} {k : Fin 32} (s : State) (b : Byte) (hp : ¬ p.toNat < Config.persistSize)
    (hslot : slotOf p = k) (hk : 14 ≤ k.val ∧ k.val < 18) :
    (∀ j, (accessAt p (.write b) s).slot j = if j = k then b else s.slot j) ∧
      accessAt p (.write b) s = { s with
        slots := (accessAt p (.write b) s).slots, bus := { s.bus with ptr := p + 1#16 }, out := [.ack] } := by
  have hnone : k ≠ 18 ∧ (k == 22) = false ∧ (k == 26) = false ∧ (k == 30) = false := by
    clear hslot
    decide +revert
  obtain ⟨h18, h22, h26, h30⟩ := hnone
  have h := accessAt_write_plain s b hp hslot hk.1 h18
  rwa [h22, h26, h30, Bool.or_false, Bool.or_false, Bool.or_false] at h

/-- A write to `NVCTL` through a pointer stores the filtered byte. -/
theorem accessAt_write_nvctl {p : Half} (s : State) {b v : Byte} (hv : nvctlFilter s.cfg b = v)
    (hp : ¬ p.toNat < Config.persistSize) (hslot : slotOf p = 18) :
    (∀ j, (accessAt p (.write b) s).slot j = if j = 18 then v else s.slot j) ∧
      accessAt p (.write b) s = { s with
        slots := (accessAt p (.write b) s).slots, bus := { s.bus with ptr := p + 1#16 }, out := [.ack] } := by
  rw [accessAt_write, regWrite_nvctl s b hp hslot, hv]
  exact ⟨fun j => slot_setSlot s 18 j v, rfl⟩

/-- A write to a read-only slot through a pointer is dropped. -/
theorem accessAt_write_readOnly {p : Half} (s : State) (b : Byte) (hp : ¬ p.toNat < Config.persistSize)
    (hk : (slotOf p).val < 14) :
    accessAt p (.write b) s = { s with bus := { s.bus with ptr := p + 1#16 }, out := [.ack] } := by
  rw [accessAt_write, regWrite_readOnly s b hp hk]

/-- Settles O26: the dropped write and the stored one. -/
theorem slotWritesStoreOrAreDropped : Obligations.SlotWritesStoreOrAreDropped := by
  unfold Obligations.SlotWritesStoreOrAreDropped
  intro k x b s hx
  have hslot := slotOf_slotPointer_fin x k
  refine ⟨fun hk => ?_, fun hk h18 => ⟨_, exec_slotRow k.isLt x _ s,
    accessAt_write_plain s b (slotPointer_notPersist hx k) hslot hk h18⟩⟩
  rw [exec_slotRow k.isLt, accessAt_write_readOnly s b (slotPointer_notPersist hx k) (by rw [hslot]; exact hk)]

/-- Settles O27: the filtered write through the row and at the canonical address, and the plain one of `SHDN`. -/
theorem triggerBytesAreFiltered : Obligations.TriggerBytesAreFiltered := by
  unfold Obligations.TriggerBytesAreFiltered
  intro x b s hwf
  have hcommit : nvctlFilter s.cfg s.cfg.nvCmdCommit = s.cfg.nvCmdCommit := if_pos (.inl rfl)
  have hreload : nvctlFilter s.cfg s.cfg.nvCmdReload = s.cfg.nvCmdReload := if_pos (.inr rfl)
  exact ⟨fun hx => ⟨_, rfl, accessAt_write_nvctl s rfl (slotPointer_notPersist hx 18) (slotOf_slotPointer_fin x 18)⟩,
    ⟨_, rfl, accessAt_write_nvctl (p := canonical 18) s hcommit (by decide) (by decide)⟩,
    ⟨_, rfl, accessAt_write_nvctl (p := canonical 18) s hreload (by decide) (by decide)⟩,
    fun hc hr => ⟨_, rfl, accessAt_write_nvctl (p := canonical 18) s (if_neg (not_or.mpr ⟨hc, hr⟩)) (by decide)
      (by decide)⟩,
    ⟨_, rfl, accessAt_write_unflagged (p := canonical 16) (k := 16) s _ (by decide) (by decide) (by decide)⟩⟩

/-! ## Layouts -/

/-- The bits of a `WK` byte in the order of the layout's table, the three places being distinct (00_scope.md R7). -/
theorem getLsbD_packWk_of_wf {c : Config} (hwf : c.wf = true) {n : Nat} (hn : n < 8) (alarm chgStart chgDone : Bool)
    (x : Byte) :
    (packWk c alarm chgStart chgDone x).getLsbD n =
      if n = c.wkAlarmBit then alarm else if n = c.wkChgStartBit then chgStart
      else if n = c.wkChgDoneBit then chgDone else x.getLsbD n := by
  obtain ⟨-, -, -, has, had, hsd⟩ := wkLayout_of_wf hwf
  rw [getLsbD_packWk c hn]
  by_cases ha : n = c.wkAlarmBit
  · simp [ha, has, had]
  · by_cases hs : n = c.wkChgStartBit
    · simp [hs, hsd, has.symm]
    · simp [ha, hs]

/-- Settles O28: the packed bytes bit by bit, each in its slot; the byte of `VERSION` is dropped. -/
theorem fieldLayoutsBitByBit : Obligations.FieldLayoutsBitByBit := by
  unfold Obligations.FieldLayoutsBitByBit
  intro a b c d r y major minor s hwf
  refine ⟨⟨_, rfl, rfl, fun k hk => slot_setSlot_other s _ hk, fun n hn => ?status⟩,
    ⟨_, rfl, rfl, fun k hk => slot_setSlot_other s _ hk, fun n hn => ?din⟩, ?wk, ?version,
    toNat_packVersion major minor⟩
  case status => rw [slot_setSlot_same, getLsbD_packStatus s.cfg hn]
  case din => rw [slot_setSlot_same, getLsbD_packDin s.cfg hn]
  case wk =>
    obtain ⟨hslot, hframe⟩ := accessAt_write_unflagged (p := canonical 15) (k := 15) s (packWk s.cfg a b c y)
      (by decide) (by decide) (by decide)
    refine ⟨_, rfl, hframe, fun k hk => (hslot k).trans (if_neg hk), fun n hn => ?_⟩
    rw [hslot, if_pos rfl, getLsbD_packWk_of_wf hwf hn]
  case version =>
    exact congrArg Host.Outcome.next (accessAt_write_readOnly (p := canonical 1) s _ (by decide) (by decide))

/-! ## Two accesses -/

/-- What a read sends after a write at the same pointer: what it would send in the state the write stored to. -/
theorem out_write_read (p : Half) (b : Byte) (s : State) :
    (accessAt p .read (accessAt p (.write b) s)).out = [.tx (regRead p (regWrite p b s)).1] := by
  have hdraws : (regWrite p b s).draws = s.draws := (congrArg State.draws (regWrite_frame s p b) :)
  have h := regRead_of_host (regWrite p b s) p { s.bus with ptr := p + 1#16 } (regWrite p b s).draws [.ack]
  rw [accessAt_read, accessAt_write, h]

/-- Settles O29: the branch of `RegWrite` that the pointer takes, then the read of what it stored. -/
theorem writeThenReadSamePointer : Obligations.WriteThenReadSamePointer := by
  unfold Obligations.WriteThenReadSamePointer
  intro p b s t u ht hu
  rw [exec_rowOfPointer] at ht hu
  obtain rfl := Host.Outcome.next.inj ht
  obtain rfl := Host.Outcome.next.inj hu
  refine ⟨fun hloc => ?stored, fun hp hk => ?nvctl, fun hp hk => ?readOnly⟩
  case stored =>
    rw [out_write_read]
    by_cases hp : p.toNat < Config.persistSize
    · rw [regWrite_persist s b hp, regRead_persist _ hp, Memory.read_write, if_pos rfl]
    · obtain ⟨hk, h18⟩ := hloc.resolve_left hp
      have hplain : ∀ k : Fin 32, 14 ≤ k.val → k.val ∉ [2, 4, 6, 8, 10, 12] := by decide
      obtain ⟨hstatus, hhigh⟩ := ne_highSlot_of_val (hplain (slotOf p) hk)
      rw [regWrite_plain s b hp (Nat.not_lt.mpr hk) fun e => h18 (slotOf_eq_iff.mp e),
        regRead_of_slot _ hp rfl hstatus hhigh, slot_writeSlot, if_pos rfl]
  case nvctl =>
    have hlow := not_persist_of_le hp
    have hslot : slotOf p = 18 := slotOf_eq_iff.mpr hk
    rw [out_write_read, regWrite_nvctl s b hlow hslot, regRead_of_slot _ hlow hslot (by decide) (by decide),
      slot_setSlot_same]
    rfl
  case readOnly =>
    have h := regRead_of_host s p { s.bus with ptr := p + 1#16 } s.draws [.ack]
    have hframe := regRead_frame s p
    have hdraws : (regRead p s).2.draws = s.draws := (congrArg State.draws hframe :)
    rw [exec_rowOfPointer, accessAt_write_readOnly s b (not_persist_of_le hp) hk, accessAt_read, accessAt_read,
      h, ← hdraws]

/-- Two pointers of the control region with the same slot are read and written alike. -/
theorem regRead_regWrite_alias {p q : Half} (hp : ¬ p.toNat < Config.persistSize) (hq : ¬ q.toNat < Config.persistSize)
    (hslot : slotOf p = slotOf q) (b : Byte) (s : State) :
    regRead p s = regRead q s ∧ regWrite p b s = regWrite q b s := by
  unfold regRead regWrite
  rw [if_neg hp, if_neg hq, if_neg hp, if_neg hq, hslot]
  exact ⟨rfl, rfl⟩

/-- Settles O30: the access at each of the two pointers is the slot's, but for the pointer left behind. -/
theorem aliasesAreOneLocation : Obligations.AliasesAreOneLocation := by
  unfold Obligations.AliasesAreOneLocation
  intro p q acc s t u hp hq hpq ht hu
  rw [exec_rowOfPointer] at ht hu
  obtain rfl := Host.Outcome.next.inj ht
  obtain rfl := Host.Outcome.next.inj hu
  have halias := regRead_regWrite_alias (not_persist_of_le hp) (not_persist_of_le hq)
    (slotOf_eq_iff.mpr hpq) (s := s)
  have hmove (r : Half) : r + 1#16 - r = 1#16 := by rw [BitVec.add_comm, BitVec.add_sub_cancel]
  cases acc with
  | point => exact ⟨rfl, (BitVec.sub_self p).trans (BitVec.sub_self q).symm⟩
  | read =>
    rw [accessAt_read, accessAt_read, (halias 0#8).1]
    exact ⟨rfl, (hmove p).trans (hmove q).symm⟩
  | write b =>
    rw [accessAt_write, accessAt_write, (halias b).2]
    exact ⟨rfl, (hmove p).trans (hmove q).symm⟩

/-- Settles O15: the two outputs as they are defined, and `WR_DATA` as `RegWrite` at an address of `BL`. -/
theorem backlightTracksBrightness : Obligations.BacklightTracksBrightness := by
  unfold Obligations.BacklightTracksBrightness
  intro s
  refine ⟨rfl, rfl, fun b hmode hphase hdir hp hk => ⟨_, exec_wrData b hmode hphase hdir, ?_⟩⟩
  have hslot : slotOf s.bus.ptr = 14 := slotOf_eq_iff.mpr hk
  rw [regWrite_plain s b (not_persist_of_le hp) (by rw [hslot]; decide) (by rw [hslot]; decide), hslot]
  exact ⟨congrArg (fun x => if s.blOn then x else 0x00#8) (slot_writeSlot s 14 14 b), rfl⟩

end Sys2Proof.Machine
end

section
/-! The composite operations of the host, uninterrupted (assumption log 10): O33, O34, O35 and O49. -/

namespace Sys2Proof.Machine

/-! ## A state over another bus state -/

/-- `s` with another bus state, count of draws and last answers: all that a transfer of bytes does not depend on. -/
def State.over (s : State) (b : BusState) (d : Nat) (o : List Resp) : State := { s with bus := b, draws := d, out := o }

variable (s : State) (b : BusState) (n : Nat) (o : List Resp)

@[simp] theorem over_bus : (s.over b n o).bus = b := rfl
@[simp] theorem over_draws : (s.over b n o).draws = n := rfl

/-! ## One event -/

section
variable {s b n o}

theorem service_addrHi_over (hm : b.mode = .active) (hp : b.phase = .addrHi) (x : Byte) :
    service (.wdata x) (s.over b n o) = s.over { b with addrHi := x, phase := .addrLo, ack := true } n [.ack] :=
  service_wdata_addrHi (s := s.over b n o) hm hp

theorem service_addrLo_over (hm : b.mode = .active) (hp : b.phase = .addrLo) (x : Byte) :
    service (.wdata x) (s.over b n o) =
      s.over { b with ptr := join16 b.addrHi x, phase := .data, ack := true } n [.ack] :=
  service_wdata_addrLo (s := s.over b n o) hm hp

theorem service_store_over (hm : b.mode = .active) (hp : b.phase = .data) (hd : b.dir = .w) (x : Byte) :
    service (.wdata x) (s.over b n o) =
      (regWrite b.ptr x s).over { b with ptr := b.ptr + 1#16, ack := true } n [.ack] := by
  have hwrite : regWrite b.ptr x (s.over b n o) = (regWrite b.ptr x s).over b n o := regWrite_of_host s b.ptr x b n o
  rw [service_wdata_write hm hp hd, busWrData, storeByte_eq, over_bus, hwrite]
  rfl

theorem service_fetch_over (hm : b.mode = .active) (hp : b.phase = .data) (hd : b.dir = .r) :
    service .rack (s.over b n o) =
      (regRead b.ptr s).2.over { b with ptr := b.ptr + 1#16 } n [.tx (regRead b.ptr s).1] := by
  have hread : regRead b.ptr (s.over b n o) = ((regRead b.ptr s).1, (regRead b.ptr s).2.over b n o) :=
    regRead_of_host s b.ptr b n o
  rw [service_rack_read hm hp hd, busRdAck, fetchByte_eq, over_bus, hread]
  rfl

theorem service_openRead_over (hm : b.mode = .active) (hp : b.phase = .data) :
    service (.start s.cfg.slaveAddr .r) (s.over b n o) =
      (regRead b.ptr s).2.over { b with dir := .r, inTransfer := true, ack := true, ptr := b.ptr + 1#16 } n
        [.ack, .tx (regRead b.ptr s).1] := by
  have hread : regRead b.ptr (s.over b n o) = ((regRead b.ptr s).1, (regRead b.ptr s).2.over b n o) :=
    regRead_of_host s b.ptr b n o
  have hkeep : dropHalfPointer (s.over b n o) = s.over b n o := dropHalfPointer_of_ne (by simp [hp])
  rw [show s.cfg = (s.over b n o).cfg from rfl, service_startR hm, busStartR_eq, hkeep, over_bus, hread, over_draws,
    ← hp]
  rfl

theorem service_stop_over (hm : b.mode = .active) (hp : b.phase ≠ .addrLo) :
    service .stop (s.over b n o) =
      s.over { b with phase := .idle, inTransfer := false, ack := false } n [] := by
  rw [service_stop hm, busStop, closeTransaction_eq, over_bus, over_draws, if_neg hp, if_neg hp]
  rfl

theorem service_rnack_over (hm : b.mode = .active) (hp : b.phase = .data) (hd : b.dir = .r) :
    service .rnack (s.over b n o) = s.over { b with phase := .idle, ack := false } n [] := by
  rw [service_rnack_read hm hp hd]
  rfl

end

/-! ## Runs in pieces -/

section
variable {s b n o} {t u : State} {b' : BusState} {n' : Nat} {o' : List Resp}

theorem transact_cons_over {e : WireEvent} {es : List WireEvent} (he : service e s = t.over b n o)
    (hes : transact es (t.over b n o) = u.over b' n' o') : transact (e :: es) s = u.over b' n' (o ++ o') := by
  rw [transact_cons, he, hes]
  rfl

theorem transact_one_over {e : WireEvent} (he : service e s = t.over b n o) : transact [e] s = t.over b n o := by
  have h := transact_cons_over (es := []) (o' := []) he rfl
  rwa [List.append_nil] at h

theorem transact_append_over {es fs : List WireEvent} (hes : transact es s = t.over b n o)
    (hfs : transact fs (t.over b n o) = u.over b' n' o') : transact (es ++ fs) s = u.over b' n' (o ++ o') := by
  rw [transact_append, hes, hfs]
  rfl

end

/-! ## Runs of bytes -/

section
variable {b}

/-- Bytes written one after the other in the data phase of a write (40_register_bus.md R136). -/
theorem transact_wdata_over (d : List Byte) (hm : b.mode = .active) (hp : b.phase = .data) (hd : b.dir = .w)
    (hack : b.ack = true) :
    transact (d.map .wdata) (s.over b n o) =
      (writeRun b.ptr d s).over { b with ptr := b.ptr + BitVec.ofNat 16 d.length } n
        (List.replicate d.length .ack) := by
  induction d generalizing s b o with
  | nil =>
    rw [List.length_nil, BitVec.add_zero]
    rfl
  | cons x d ih =>
    have hrun := ih (regWrite b.ptr x s) [.ack] (b := { b with ptr := b.ptr + 1#16, ack := true }) hm hp hd rfl
    have hptr : b.ptr + 1#16 + BitVec.ofNat 16 d.length = b.ptr + BitVec.ofNat 16 (d.length + 1) := by
      rw [BitVec.add_assoc, ← BitVec.ofNat_add, Nat.add_comm]
    have hall := transact_cons_over (service_store_over (s := s) (n := n) (o := o) hm hp hd x) hrun
    dsimp only at hall
    rw [hptr, ← hack] at hall
    exact hall

/-- Bytes fetched one after the other in the data phase of a read (40_register_bus.md R137). -/
theorem transact_rack_over (m : Nat) (hm : b.mode = .active) (hp : b.phase = .data) (hd : b.dir = .r) :
    transact (List.replicate m .rack) (s.over b n o) =
      (readRun b.ptr m s).2.over { b with ptr := b.ptr + BitVec.ofNat 16 m } n ((readRun b.ptr m s).1.map .tx) := by
  induction m generalizing s b o with
  | zero =>
    rw [BitVec.add_zero]
    rfl
  | succ m ih =>
    have hrun := ih (regRead b.ptr s).2 [.tx (regRead b.ptr s).1] (b := { b with ptr := b.ptr + 1#16 }) hm hp hd
    have hptr : b.ptr + 1#16 + BitVec.ofNat 16 m = b.ptr + BitVec.ofNat 16 (m + 1) := by
      rw [BitVec.add_assoc, ← BitVec.ofNat_add, Nat.add_comm]
    have hall := transact_cons_over (service_fetch_over (s := s) (n := n) (o := o) hm hp hd) hrun
    dsimp only at hall
    rw [hptr] at hall
    exact hall

end

/-! ## The pointer and the whole transactions -/

/-- The bus state after the start of a write transaction, the pointer kept or drawn (30_encoding.md R94). -/
def openedBus (b : BusState) (q : Half) : BusState :=
  { b with dir := .w, phase := .addrHi, inTransfer := true, ack := true, ptr := q }

/-- The bus state after the pointer bytes of a write transaction (30_encoding.md R94). -/
def pointedBus (b : BusState) (a : Half) : BusState :=
  { b with dir := .w, phase := .data, inTransfer := true, ack := true, addrHi := hiByte a, ptr := a }

theorem pointedBus_ptr (b : BusState) (a : Half) : (pointedBus b a).ptr = a := rfl

section
variable {s} (hm : s.bus.mode = .active) (a : Half)
include hm

theorem transact_pointerEvents :
    transact (pointerEvents s.cfg a) s =
      s.over (pointedBus s.bus a) (dropHalfPointer s).draws [.ack, .ack, .ack] := by
  have hstart : service (.start s.cfg.slaveAddr .w) s =
      s.over (openedBus s.bus (dropHalfPointer s).bus.ptr) (dropHalfPointer s).draws [.ack] := by
    rw [service_startW hm, busStartW, dropHalfPointer_frame]
    rfl
  have hhi := service_addrHi_over (s := s) (b := openedBus s.bus (dropHalfPointer s).bus.ptr)
    (n := (dropHalfPointer s).draws) (o := [.ack]) hm rfl (hiByte a)
  have hlo := service_addrLo_over (s := s)
    (b := { openedBus s.bus (dropHalfPointer s).bus.ptr with addrHi := hiByte a, phase := .addrLo, ack := true })
    (n := (dropHalfPointer s).draws) (o := [.ack]) hm rfl (loByte a)
  dsimp only at hlo
  rw [join16_hi_lo] at hlo
  exact transact_cons_over hstart (transact_cons_over hhi (transact_one_over hlo))

/-- The composite writes: the pointer, the bytes, the end (30_encoding.md R110). -/
theorem transact_writeEvents (d : List Byte) :
    transact (writeEvents s.cfg a d) s =
      (writeRun a d s).over { pointedBus s.bus a with
        phase := .idle, inTransfer := false, ack := false, ptr := a + BitVec.ofNat 16 d.length }
        (dropHalfPointer s).draws (List.replicate (3 + d.length) .ack) := by
  have hbytes := transact_wdata_over s (dropHalfPointer s).draws [.ack, .ack, .ack] d (b := pointedBus s.bus a) hm rfl
    rfl rfl
  rw [pointedBus_ptr] at hbytes
  have hstop := service_stop_over (s := writeRun a d s)
    (b := { pointedBus s.bus a with ptr := a + BitVec.ofNat 16 d.length }) (n := (dropHalfPointer s).draws)
    (o := [Resp.ack, Resp.ack, Resp.ack] ++ List.replicate d.length Resp.ack) hm nofun
  have hall := transact_append_over (transact_append_over (transact_pointerEvents hm a) hbytes)
    (transact_one_over hstop)
  have hout : List.replicate (3 + d.length) Resp.ack =
      [Resp.ack, Resp.ack, Resp.ack] ++ List.replicate d.length Resp.ack ++ [] := by
    rw [List.append_nil, List.replicate_add]
    rfl
  rw [hout]
  exact hall

/-- The composite reads: the pointer, the first fetch, the further ones, the end (30_encoding.md R110). -/
theorem transact_readEvents {m : Nat} (hpos : 1 ≤ m) :
    transact (readEvents s.cfg a m) s =
      (readRun a m s).2.over { pointedBus s.bus a with
        dir := .r, phase := .idle, inTransfer := false, ack := false, ptr := a + BitVec.ofNat 16 m }
        (dropHalfPointer s).draws ([Resp.ack, Resp.ack, Resp.ack, Resp.ack] ++ (readRun a m s).1.map Resp.tx) := by
  obtain ⟨m, rfl⟩ : ∃ k, m = k + 1 := ⟨m - 1, by omega⟩
  have hfirst := service_openRead_over (s := s) (b := pointedBus s.bus a) (n := (dropHalfPointer s).draws)
    (o := [.ack, .ack, .ack]) hm rfl
  rw [pointedBus_ptr] at hfirst
  have hrest := transact_rack_over (regRead a s).2 (dropHalfPointer s).draws
    ([Resp.ack, Resp.ack, Resp.ack] ++ [Resp.ack, Resp.tx (regRead a s).1]) m
    (b := { pointedBus s.bus a with dir := .r, ptr := a + 1#16 }) hm rfl rfl
  have hptr : a + 1#16 + BitVec.ofNat 16 m = a + BitVec.ofNat 16 (m + 1) := by
    rw [BitVec.add_assoc, ← BitVec.ofNat_add, Nat.add_comm]
  dsimp only at hrest
  rw [hptr] at hrest
  have hnack := service_rnack_over (s := (readRun a (m + 1) s).2)
    (b := { pointedBus s.bus a with dir := .r, ptr := a + BitVec.ofNat 16 (m + 1) }) (n := (dropHalfPointer s).draws)
    (o := [Resp.ack, Resp.ack, Resp.ack] ++ [Resp.ack, Resp.tx (regRead a s).1] ++
      (readRun (a + 1#16) m (regRead a s).2).1.map Resp.tx) hm rfl rfl
  have hstop := service_stop_over (s := (readRun a (m + 1) s).2)
    (b := { pointedBus s.bus a with
      dir := .r, phase := .idle, ack := false, ptr := a + BitVec.ofNat 16 (m + 1) }) (n := (dropHalfPointer s).draws)
    (o := []) hm nofun
  have hall := transact_append_over (transact_append_over (transact_append_over (transact_pointerEvents hm a)
    (transact_one_over hfirst)) hrest) (transact_cons_over hnack (transact_one_over hstop))
  rw [List.append_nil, List.append_nil] at hall
  exact hall

end

/-- The pointer and the draws are kept but for a transaction with one address byte (40_register_bus.md R143). -/
theorem draws_dropHalfPointer {s : State} (hp : s.bus.phase ≠ .addrLo) : (dropHalfPointer s).draws = s.draws :=
  (dropHalfPointer_keeps hp).2

/-- Settles O33: each operation is the composite write of its bytes. -/
theorem hostWritesBytesInOrder : Obligations.HostWritesBytesInOrder := by
  unfold Obligations.HostWritesBytesInOrder
  intro a h b w l d i s hm hmem
  have hexec : exec i s = .next (transact (writeEvents s.cfg a d) s) := by
    simp only [List.mem_cons, List.not_mem_nil, or_false, Prod.mk.injEq] at hmem
    rcases hmem with ⟨rfl, rfl⟩ | ⟨rfl, rfl⟩ | ⟨rfl, rfl⟩ | ⟨rfl, rfl⟩ | ⟨rfl, rfl⟩ <;> rfl
  exact ⟨(dropHalfPointer s).draws, draws_dropHalfPointer, hexec.trans (congrArg _ (transact_writeEvents hm a d))⟩

theorem sent_respond_ack (t : State) (r : List Resp) : (t.respond (.ack :: r)).sent = (t.respond r).sent := rfl

theorem sent_respond_tx (t : State) (x : Byte) (r : List Resp) :
    (t.respond (.tx x :: r)).sent = x :: (t.respond r).sent := rfl

/-- What the slave sent, of answers that are bytes. -/
theorem sent_respond_map_tx (t : State) (l : List Byte) : (t.respond (l.map .tx)).sent = l := by
  induction l with
  | nil => rfl
  | cons x l ih => rw [List.map_cons, sent_respond_tx, ih]

/-- A composite read sends the bytes it fetched, after its four acknowledges. -/
theorem sent_of_out {t : State} {l : List Byte}
    (h : t.out = [Resp.ack, Resp.ack, Resp.ack, Resp.ack] ++ l.map Resp.tx) : t.sent = l := by
  rw [show t.sent = (t.respond t.out).sent from rfl, h]
  simp only [List.cons_append, List.nil_append, sent_respond_ack, sent_respond_map_tx]

/-- Settles O34: each operation is the composite read of its number of bytes. -/
theorem hostReadsBytesInOrder : Obligations.HostReadsBytesInOrder := by
  unfold Obligations.HostReadsBytesInOrder
  intro a m n i s hm hpos hmem
  have hexec : 1 ≤ n ∧ exec i s = .next (transact (readEvents s.cfg a n) s) := by
    simp only [List.mem_cons, List.not_mem_nil, or_false, Prod.mk.injEq] at hmem
    rcases hmem with ⟨rfl, rfl⟩ | ⟨rfl, rfl⟩ | ⟨rfl, rfl⟩ | ⟨rfl, rfl⟩
    · exact ⟨by decide, rfl⟩
    · exact ⟨by decide, rfl⟩
    · exact ⟨by decide, rfl⟩
    · exact ⟨hpos, rfl⟩
  obtain ⟨hn, hexec⟩ := hexec
  exact ⟨_, hexec.trans (congrArg _ (transact_readEvents hm a hn)), sent_of_out rfl, draws_dropHalfPointer, rfl⟩

/-! ## Inside the persistent region -/

/-- Bytes written inside the persistent region change `mem` there and nothing else (20_memory.md R62). -/
theorem writeRun_persist {p : Half} {d : List Byte} (hd : p.toNat + d.length ≤ 4096) (s : State) :
    writeRun p d s = { s with mem := (writeRun p d s).mem } ∧
      ∀ x, Memory.read (writeRun p d s).mem x =
        if p.toNat ≤ x then (d[x - p.toNat]?).getD (Memory.read s.mem x) else Memory.read s.mem x := by
  induction d generalizing p s with
  | nil => exact ⟨rfl, fun x => by simp [writeRun]⟩
  | cons b d ih =>
    rw [List.length_cons] at hd
    have hp : p.toNat < 4096 := by omega
    have hsucc := toNat_succ_of_lt (q := p) (by omega)
    obtain ⟨hframe, hread⟩ := ih (p := p + 1#16) (by omega) (regWrite p b s)
    rw [writeRun]
    rw [regWrite_persist s b hp] at hframe hread ⊢
    refine ⟨hframe, fun x => ?_⟩
    rw [hread, hsucc, Memory.read_write]
    rcases Nat.lt_trichotomy x p.toNat with hlt | heq | hgt
    · rw [if_neg (by omega), if_neg (by omega), if_neg (by omega)]
    · rw [if_neg (by omega), if_pos heq, if_pos (by omega), heq, Nat.sub_self]
      rfl
    · have hidx : x - p.toNat = (x - (p.toNat + 1)) + 1 := by omega
      rw [if_pos (by omega), if_neg (by omega), if_pos (by omega), hidx, List.getElem?_cons_succ]

/-- Bytes read inside the persistent region, with no side effect (20_memory.md R61). -/
theorem readRun_persist {p : Half} {n : Nat} (hn : p.toNat + n ≤ 4096) (s : State) :
    readRun p n s = ((List.range' p.toNat n).map (Memory.read s.mem), s) := by
  induction n generalizing p with
  | zero => rfl
  | succ n ih =>
    have hp : p.toNat < 4096 := by omega
    have hsucc := toNat_succ_of_lt (q := p) (by omega)
    rw [readRun, regRead_persist s hp, ih (p := p + 1#16) (by omega), hsucc]
    rfl

/-- Settles O35: the composite write stores the list in `mem` alone, and the composite read at the same address fetches
those bytes and changes nothing. -/
theorem persistentWriteReadsBack : Obligations.PersistentWriteReadsBack := by
  unfold Obligations.PersistentWriteReadsBack
  intro a d s hm hne hd
  obtain ⟨hframe, hread⟩ := writeRun_persist hd s
  have hpos : 1 ≤ d.length := List.length_pos_iff.mpr hne
  obtain ⟨t, ht⟩ : ∃ t, t = transact (writeEvents s.cfg a d) s := ⟨_, rfl⟩
  have hover := ht.trans (transact_writeEvents hm a d)
  have hmode : t.bus.mode = .active := by rw [hover]; exact hm
  have hmem : t.mem = (writeRun a d s).mem := by rw [hover]; rfl
  have hslots : t.slots = s.slots := by
    rw [hover]
    exact (congrArg State.slots hframe :)
  have hu := transact_readEvents hmode a hpos
  rw [readRun_persist hd t] at hu
  refine ⟨t, _, congrArg Host.Outcome.next ht.symm, congrArg Host.Outcome.next hu, ?sent, fun x => ?mem, rfl, hslots⟩
  case mem =>
    rw [hmem, hread]
    by_cases hlo : a.toNat ≤ x
    · by_cases hhi : x < a.toNat + d.length
      · rw [if_pos hlo, dif_pos ⟨hlo, hhi⟩, List.getElem?_eq_getElem (by omega)]
        rfl
      · rw [if_pos hlo, dif_neg fun h => hhi h.2, List.getElem?_eq_none (by omega)]
        rfl
    · rw [if_neg hlo, dif_neg fun h => hlo h.1]
  case sent =>
    rw [sent_of_out rfl, hmem]
    refine List.ext_getElem (by simp) fun i hi hi' => ?_
    rw [List.getElem_map, List.getElem_range', Nat.one_mul, hread, if_pos (Nat.le_add_right _ _),
      Nat.add_sub_cancel_left, List.getElem?_eq_getElem hi']
    rfl

/-! ## Setting the time -/

/-- A host write to a slot that is no 32-bit field's low byte stores it and sets no commit flag. -/
theorem writeSlot_unflagged {k : Fin 32} (hk : k ≠ 22 ∧ k ≠ 26 ∧ k ≠ 30) (b : Byte) (s : State) :
    writeSlot k b s = s.setSlot k b := by
  have h22 : (k == 22) = false := beq_eq_false_iff_ne.mpr hk.1
  have h26 : (k == 26) = false := beq_eq_false_iff_ne.mpr hk.2.1
  have h30 : (k == 30) = false := beq_eq_false_iff_ne.mpr hk.2.2
  rw [writeSlot, h22, h26, h30, Bool.or_false, Bool.or_false, Bool.or_false]
  rfl

/-- A host write through a pointer of a slot of `TIME` (10_state.md R24, R28). -/
theorem regWrite_time {p : Half} {k : Fin 32} (hp : 4096 ≤ p.toNat) (hslot : slotOf p = k)
    (hk : 19 ≤ k.val ∧ k.val < 22) (b : Byte) (s : State) : regWrite p b s = s.setSlot k b := by
  have hplain : ¬ k.val < Config.roBoundary ∧ k ≠ 18 ∧ k ≠ 22 ∧ k ≠ 26 ∧ k ≠ 30 := by
    clear hslot
    decide +revert
  obtain ⟨hro, h18, hflags⟩ := hplain
  subst hslot
  rw [regWrite_plain s b (not_persist_of_le hp) hro h18, writeSlot_unflagged hflags]

/-- The four bytes of `TIME` written from its first address on: the field, and its commit flag (10_state.md R28). -/
theorem writeRun_time (v : Word) (s : State) :
    writeRun 0x1013#16 (bytes32 v) s = { s.setBe32 19 v with timeCommit := true } := by
  have hlast : ∀ u : State, regWrite (0x1013#16 + 1#16 + 1#16 + 1#16) (byteOf32 v 3) u =
      { u.setSlot 22 (byteOf32 v 3) with timeCommit := true } := fun u => by
    rw [regWrite_plain u _ (by decide) (by decide) (by decide)]
    change writeSlot 22 _ u = _
    rw [writeSlot, beq_self_eq_true, Bool.or_true, show ((22 : Fin 32) == 26) = false from rfl,
      show ((22 : Fin 32) == 30) = false from rfl, Bool.or_false, Bool.or_false]
    rfl
  rw [bytes32, writeRun, writeRun, writeRun, writeRun, writeRun, hlast,
    regWrite_time (p := 0x1013#16) (k := 19) (by decide) (by decide) (by decide),
    regWrite_time (p := 0x1013#16 + 1#16) (k := 20) (by decide) (by decide) (by decide),
    regWrite_time (p := 0x1013#16 + 1#16 + 1#16) (k := 21) (by decide) (by decide) (by decide)]
  rfl

/-- Seconds with no correction enabled advance the counter by one each (43_rtc.md R221). -/
theorem runs_seconds_uncorrected (m : Nat) {s : State} (hen : s.rtc.corrEn = false) :
    ∃ t, runs (List.replicate m .second) s = some t ∧ t.rtc.count = s.rtc.count + BitVec.ofNat 32 m := by
  induction m generalizing s with
  | zero => exact ⟨s, rfl, (BitVec.add_zero _).symm⟩
  | succ m ih =>
    have hcount : (oneSecond s).rtc.count = s.rtc.count + 1#32 := by rw [oneSecond_eq, rtcAdvance_of_disabled s.cfg hen]
    obtain ⟨t, hrun, ht⟩ := ih (s := oneSecond s) (by rw [oneSecond_eq]; exact hen)
    refine ⟨t, hrun, ?_⟩
    rw [ht, hcount, Nat.add_comm m 1, BitVec.ofNat_add, BitVec.add_assoc]

/-- Settles O49: the write leaves the field and its commit flag outside a transaction, the evaluation loads and
publishes it, and the seconds count on. -/
theorem timeRoundTrip : Obligations.TimeRoundTrip := by
  unfold Obligations.TimeRoundTrip
  intro v n s hm hen hcorr
  obtain ⟨t, ht⟩ : ∃ t, t = transact (writeEvents s.cfg 0x1013#16 (bytes32 v)) s := ⟨_, rfl⟩
  have hover := ht.trans (transact_writeEvents hm 0x1013#16 (bytes32 v))
  rw [writeRun_time] at hover
  obtain ⟨u, hu, hcount, -, -, -, hen', -, -, hpub, -, hframe⟩ :=
    clockEvaluationCommitsAndPublishes t (by rw [hover]; rfl)
  have hload : u.rtc.count = v := by
    rw [hcount, hover]
    exact be32_setBe32_same s 19 v
  have hoff : u.rtc.corrEn = false := by
    rw [hen', hover]
    change (if s.corrCommit = true then _ else s.rtc.corrEn) = false
    rw [hcorr]
    exact hen
  obtain ⟨w, hrun, hw⟩ := runs_seconds_uncorrected n hoff
  refine ⟨t, u, w, congrArg Host.Outcome.next ht.symm, hu, hload, hpub.trans hload, ?_, hrun, by rw [hw, hload]⟩
  rw [hframe]

end Sys2Proof.Machine
end
